-- ==== Sys2Proof/Word.lean ====
section
/-! DEFINITION. The widths of the LCD4E block's values (rules R10 and R11 of spec/00_scope.md): bits are
numbered from 0 at the least significant end and every value is unsigned. -/

namespace Sys2Proof

/-- One pin or one handshake line. -/
abbrev Bit := BitVec 1

/-- The 4-bit data bus (R10). -/
abbrev Nibble := BitVec 4

/-- A transferred value, an operand or a tracked register (R10). -/
abbrev Byte := BitVec 8

/-- An operation word, a payload word or a response (R80, R100). -/
abbrev Word := BitVec 32

end Sys2Proof
end

