-- ==== Sys2Proof/Syntax.lean ====
section
/-! DEFINITION. The operations of the host port, one constructor per row of spec/opcode_table.json (R85). Fields an operation
does not use are ignored by the block (R87) and have no argument here. -/

namespace Sys2Proof

inductive Instr
  /-- INIT, R130. -/
  | init
  /-- CLEAR, R133. -/
  | clear
  /-- HOME, R135. -/
  | home
  /-- LOCATE column, row, R150. -/
  | locate (col row : Byte)
  /-- PUTCAT column, row, glyph, R151. -/
  | putcat (col row glyph : Byte)
  /-- PUTC character, R153. -/
  | putc (ch : Byte)
  /-- DEFGLYPH slot and `bitmap[0]` to `bitmap[7]`, R190; a well-formed bitmap has exactly 8 bytes. -/
  | defglyph (slot : Byte) (bitmap : List Byte)
  /-- GETC, R157. -/
  | getc
  /-- SETMODE 0, R171. -/
  | setmodeDisplayOn
  /-- SETMODE 1, R172. -/
  | setmodeDisplayOff
  /-- SETMODE 2, R173. -/
  | setmodeCursorOn
  /-- SETMODE 3, R174. -/
  | setmodeCursorOff
  /-- SETMODE 4, R175. -/
  | setmodeBlinkOn
  /-- SETMODE 5, R176. -/
  | setmodeBlinkOff
  /-- SETMODE 6, R177. -/
  | setmodeScrollLeft
  /-- SETMODE 7, R178. -/
  | setmodeScrollRight
  /-- SETMODE 8, R179. -/
  | setmodeLeftToRight
  /-- SETMODE 9, R180. -/
  | setmodeRightToLeft
  /-- SETMODE 10, R181. -/
  | setmodeAutoscrollOn
  /-- SETMODE 11, R182. -/
  | setmodeAutoscrollOff
  /-- ROWS, R200. -/
  | rows
  /-- COLS, R201. -/
  | cols
  /-- ADDR column, row, R202. -/
  | addr (col row : Byte)
  /-- RDSR register number, R203. -/
  | rdsr (reg : Byte)
deriving DecidableEq, Repr

end Sys2Proof
end

