-- ==== Sys2Proof/WellFormed.lean ====
section
/-! DEFINITION. Which instruction terms the operation port can express. -/

namespace Sys2Proof

/-- "A glyph bitmap is exactly 8 bytes" (R10); every other operand is an 8-bit field used at its full width (R86), so every
value of it is admitted. -/
def Instr.wellFormed : Instr → Bool
  | .defglyph _ bitmap => bitmap.length == 8
  | .init | .clear | .home | .locate _ _ | .putcat _ _ _ | .putc _ | .getc => true
  | .setmodeDisplayOn | .setmodeDisplayOff | .setmodeCursorOn | .setmodeCursorOff => true
  | .setmodeBlinkOn | .setmodeBlinkOff | .setmodeScrollLeft | .setmodeScrollRight => true
  | .setmodeLeftToRight | .setmodeRightToLeft | .setmodeAutoscrollOn | .setmodeAutoscrollOff => true
  | .rows | .cols | .addr _ _ | .rdsr _ => true

end Sys2Proof
end

