-- ==== Sys2Proof/Decode.lean ====
section
/-! DEFINITION. Operation words to instructions and back (spec/30_encoding.md sections 1 to 3). The port carries whole 32-bit
words (R80), so the decoder reads a list of words; there is no byte order to choose. -/

namespace Sys2Proof

/-- Field `op`, bits 31:24 of format S (R81). -/
def opField (w : Word) : Byte := w.extractLsb' 24 8

/-- Field `a`, bits 23:16 of format S (R81). -/
def aField (w : Word) : Byte := w.extractLsb' 16 8

/-- Field `b`, bits 15:8 of format S (R81). -/
def bField (w : Word) : Byte := w.extractLsb' 8 8

/-- Field `c`, bits 7:0 of format S (R81). -/
def cField (w : Word) : Byte := w.extractLsb' 0 8

/-- The four bytes of a payload word, most significant first (R84). -/
def payloadBytes (p : Word) : List Byte := [opField p, aField p, bField p, cField p]

/-- How many words an operation has, told from `op` of its first word alone (R83). -/
def wordCount (w : Word) : Nat := if opField w = 0x06 then 3 else 1

/-- What the decoder says of the words the host presents. -/
inductive Decoded
  /-- An operation, and the words after it. -/
  | operation (i : Instr) (rest : List Word)
  /-- A reserved word (R88): not an operation. -/
  | reserved (w : Word)
  /-- The host has not presented all the words of an operation. -/
  | incomplete
deriving DecidableEq, Repr

/-- SETMODE: `a` is the mode number; 12 to 255 are reserved (R85, R88). -/
def decodeMode (a : Byte) : Option Instr :=
  match a with
  | 0#8 => some .setmodeDisplayOn
  | 1#8 => some .setmodeDisplayOff
  | 2#8 => some .setmodeCursorOn
  | 3#8 => some .setmodeCursorOff
  | 4#8 => some .setmodeBlinkOn
  | 5#8 => some .setmodeBlinkOff
  | 6#8 => some .setmodeScrollLeft
  | 7#8 => some .setmodeScrollRight
  | 8#8 => some .setmodeLeftToRight
  | 9#8 => some .setmodeRightToLeft
  | 10#8 => some .setmodeAutoscrollOn
  | 11#8 => some .setmodeAutoscrollOff
  | _ => none

/-- A one-word operation by its `op`, `a`, `b`, `c` (the table of R85); unused fields are ignored (R87). -/
def decodeOne (op a b c : Byte) : Option Instr :=
  match op with
  | 0x00#8 => some .init
  | 0x01#8 => some .clear
  | 0x02#8 => some .home
  | 0x03#8 => some (.locate a b)
  | 0x04#8 => some (.putcat a b c)
  | 0x05#8 => some (.putc c)
  | 0x07#8 => some .getc
  | 0x10#8 => decodeMode a
  | 0x20#8 => some .rows
  | 0x21#8 => some .cols
  | 0x22#8 => some (.addr a b)
  | 0x23#8 => some (.rdsr a)
  | _ => none

/-- DEFGLYPH's two payload words, always consumed (R83, R84). -/
def decodeGlyph (slot : Byte) : List Word → Decoded
  | p0 :: p1 :: rest => .operation (.defglyph slot (payloadBytes p0 ++ payloadBytes p1)) rest
  | [_] | [] => .incomplete

/-- The next operation of a word stream. -/
def decode : List Word → Decoded
  | [] => .incomplete
  | w :: rest =>
    if opField w = 0x06 then
      decodeGlyph (aField w) rest
    else
      match decodeOne (opField w) (aField w) (bField w) (cField w) with
      | some i => .operation i rest
      | none => .reserved w

/-- `{op, a, b, c}` (R101). -/
def opWord (op a b c : Byte) : Word := op ++ a ++ b ++ c

/-- Four bitmap bytes from index `k`, `bitmap[k]` at the most significant end (R84). -/
def payloadWord (bitmap : List Byte) (k : Nat) : Word :=
  opWord (bitmap.getD k 0) (bitmap.getD (k + 1) 0) (bitmap.getD (k + 2) 0) (bitmap.getD (k + 3) 0)

/-- The words of an instruction, unused fields 0 as the assembler writes them (R87, R101). -/
def encode : Instr → List Word
  | .init => [opWord 0x00 0 0 0]
  | .clear => [opWord 0x01 0 0 0]
  | .home => [opWord 0x02 0 0 0]
  | .locate col row => [opWord 0x03 col row 0]
  | .putcat col row glyph => [opWord 0x04 col row glyph]
  | .putc ch => [opWord 0x05 0 0 ch]
  | .defglyph slot bitmap => [opWord 0x06 slot 0 0, payloadWord bitmap 0, payloadWord bitmap 4]
  | .getc => [opWord 0x07 0 0 0]
  | .setmodeDisplayOn => [opWord 0x10 0 0 0]
  | .setmodeDisplayOff => [opWord 0x10 1 0 0]
  | .setmodeCursorOn => [opWord 0x10 2 0 0]
  | .setmodeCursorOff => [opWord 0x10 3 0 0]
  | .setmodeBlinkOn => [opWord 0x10 4 0 0]
  | .setmodeBlinkOff => [opWord 0x10 5 0 0]
  | .setmodeScrollLeft => [opWord 0x10 6 0 0]
  | .setmodeScrollRight => [opWord 0x10 7 0 0]
  | .setmodeLeftToRight => [opWord 0x10 8 0 0]
  | .setmodeRightToLeft => [opWord 0x10 9 0 0]
  | .setmodeAutoscrollOn => [opWord 0x10 10 0 0]
  | .setmodeAutoscrollOff => [opWord 0x10 11 0 0]
  | .rows => [opWord 0x20 0 0 0]
  | .cols => [opWord 0x21 0 0 0]
  | .addr col row => [opWord 0x22 col row 0]
  | .rdsr reg => [opWord 0x23 reg 0 0]

/-- Bits numbered as spec/opcode_table.json numbers them (bit 0 the least significant bit of the first word, a later word's
bits counting on), cut into exactly the words of the operation they begin; bits at or above `nbits` are 0. -/
def tableWords (nbits w : Nat) : List Word :=
  let v := w % 2 ^ nbits
  let w0 : Word := BitVec.ofNat 32 v
  if wordCount w0 = 3 then [w0, BitVec.ofNat 32 (v / 2 ^ 32), BitVec.ofNat 32 (v / 2 ^ 64)] else [w0]

/-- The instruction the decoder reads from table-numbered bits. -/
def decodeTableWord (nbits w : Nat) : Option Instr :=
  match decode (tableWords nbits w) with
  | .operation i _ => some i
  | .reserved _ => none
  | .incomplete => none

end Sys2Proof
end

