-- ==== Sys2Proof/Config.lean ====
section
/-! DEFINITION. The implementation parameters of spec/00_scope.md section 4 (R7 to R10): what is fixed before reset is
released and never changes afterwards (R235). The block leaves no value free, so nothing here is opaque. -/

namespace Sys2Proof

/-- The panel type `PTYPE` (R7): exactly these five; a strap code 5 to 7 cannot be expressed
(spec/93_implementation_defined.md U6). -/
inductive PanelType
  | lcd16x2
  | lcd20x2
  | lcd20x4
  | lcd40x2
  | lcd8x2
deriving DecidableEq, Repr

/-- The five durations of R9, in microseconds, each a lower bound on elapsed time with no upper bound. -/
structure Timing where
  /-- Minimum time each level of the enable pulse is held. -/
  tPulse : Nat
  /-- Minimum wait after the second nibble of every byte. -/
  tSettle : Nat
  /-- Extra wait after clear-display and return-home. -/
  tLong : Nat
  /-- Wait at the start of INIT. -/
  tPowerOn : Nat
  /-- Wait after each of the three initial nibbles. -/
  tInitGap : Nat
deriving DecidableEq, Repr

/-- The source's figures, the defaults of R9. -/
def Timing.default : Timing :=
  { tPulse := 1, tSettle := 40, tLong := 2000, tPowerOn := 15000, tInitGap := 2000 }

/-- The parameter `INIT_NIBBLES` (R10, R99, R131): three resynchronising nibbles and, except in the other reading that R131
names, a fourth one. -/
structure InitNibbles where
  first : Nibble
  second : Nibble
  third : Nibble
  fourth : Option Nibble
deriving DecidableEq, Repr

/-- `[0x3, 0x3, 0x3, 0x2]` (R10, spec/92_eei_decisions.md D13). -/
def InitNibbles.default : InitNibbles :=
  { first := 0x3, second := 0x3, third := 0x3, fourth := some 0x2 }

/-- Everything an implementation fixes: the panel strap, whether the read/write line exists (`HAS_RW`, R8), the durations and
the initial nibbles. -/
structure Config where
  strap : PanelType
  hasRw : Bool
  timing : Timing
  initNibbles : InitNibbles
deriving DecidableEq, Repr

/-- The configuration `State.reset` is given. DESIGN CHOICE (log entries 5 and 6): the spec names no default panel and leaves
`HAS_RW` open; the durations and the nibbles are the spec's defaults. Unsafe: a claim about this one configuration says nothing
of another. -/
def Config.default : Config :=
  { strap := .lcd16x2, hasRw := false, timing := .default, initNibbles := .default }

end Sys2Proof
end

