-- ==== Sys2Proof/Machine/State.lean ====
section
/-! DEFINITION. The state of the block (spec/10_state.md), the reasons a step can stop, and the state after reset
(R43, R230). -/

namespace Sys2Proof.Machine

/-- One event of the pin trace (R14): `SET(P, v)` for each output pin register, and `DLY(t)`, at least `t` microseconds in
which no pin and no register changes (R13, R223). -/
inductive Event
  | setRS (v : Bit)
  | setE (v : Bit)
  | setD (v : Nibble)
  | setRW (v : Bit)
  | dly (t : Nat)
deriving DecidableEq, Repr

/-- One statement of an operation's pseudocode, as the sequencer executes it: a pin write or a delay, a write of a tracked
register (R13), or the response that completes the operation (R16). -/
inductive Act
  | emit (ev : Event)
  | setEntry (v : Byte)
  | setDctrl (v : Byte)
  | setCol (v : Byte)
  | setRow (v : Byte)
  | respond (v : Word)
deriving DecidableEq, Repr

/-- The state of the block. The configuration it sampled at reset (`ptype`, `rw`'s presence, `timing`, `initNibbles`) stands in
it so that a statement about every state is about every configuration; no operation changes it (R235). -/
structure State where
  /-- `ENTRY[1:0]`, that is `ID` and `S`: bits 7:2 are not implemented (R22; log entry 11). -/
  entryFlags : BitVec 2
  /-- `DCTRL[2:0]`, that is `D`, `C` and `B`: bits 7:3 are not implemented (R25; log entry 11). -/
  dctrlFlags : BitVec 3
  /-- `COL`, the tracked column (R28). -/
  col : Byte
  /-- `ROW`, the tracked row (R29). -/
  row : Byte
  /-- Pin register `RS` (R34). -/
  rs : Bit
  /-- Pin register `E` (R35). -/
  e : Bit
  /-- Pin register `D` (R36). -/
  d : Nibble
  /-- Pin register `RW`, which exists only when `HAS_RW` is true (R37): `none` is the absent line. -/
  rw : Option Bit
  /-- `PTYPE`, the panel type sampled at reset (R30). -/
  ptype : PanelType
  /-- The timing parameters (R9). -/
  timing : Timing
  /-- The parameter `INIT_NIBBLES` (R10). -/
  initNibbles : InitNibbles
  /-- The sequencer's position: the statements of the running operation not yet executed (R21). `BUSY` is 1 exactly while
  one is left (R39; log entry 12). -/
  pending : List Act
  /-- The words the host presents on the operation port, the next one first (R80; the model's own field, log entry 2). -/
  port : List Word
  /-- The response of the last completed operation (R100; the model's own field, log entry 9). -/
  resp : Word
  /-- The pin trace, oldest event first (R14). -/
  trace : List Event
deriving DecidableEq, Repr

/-- Faults: none. The block raises no exception and records no error (R210), so nothing in the model faults. -/
inductive Fault
deriving DecidableEq, Repr

/-- Why a step has no meaning. -/
inductive Refusal
  /-- Raised by an arm of `exec` that has no meaning yet; no arm does. Safe: the model stops where the block goes on. -/
  | notModelled (mnemonic : String)
  /-- Raised by `step` for a reserved operation word (R88), which spec/93_implementation_defined.md U5 tells a model to refuse.
  Safe: the block would consume the word and do nothing. -/
  | reservedWord (w : Word)
deriving DecidableEq, Repr

/-- The state right after reset of a block configured as `c` (R43, R230). -/
def State.resetWith (c : Config) : State :=
  { entryFlags := 0b10
    dctrlFlags := 0b000
    col := 0
    row := 0
    rs := 0
    e := 0
    d := 0
    rw := if c.hasRw then some 0 else none
    ptype := c.strap
    timing := c.timing
    initNibbles := c.initNibbles
    pending := []
    port := []
    resp := 0
    trace := [] }

/-- The state right after reset, for the default configuration. -/
def State.reset : State := State.resetWith Config.default

end Sys2Proof.Machine
end

