-- ==== Sys2Proof/Machine/Ops.lean ====
section
/-! DEFINITION. The named operations over the state: register views, the execution of one pseudocode statement, the
byte-transfer engine of spec/40_transfer.md, the running of an operation, and the reset event. The block takes no exception and
returns from none (R210, R218, R219), so there is no such operation here; it has no memory (R50) and loads nothing (R119). -/

namespace Sys2Proof.Machine

/-- `ENTRY` as read: 8 bits, bits 7:2 zero (R22). -/
def State.entry (s : State) : Byte := s.entryFlags.setWidth 8

/-- `DCTRL` as read: 8 bits, bits 7:3 zero (R25). -/
def State.dctrl (s : State) : Byte := s.dctrlFlags.setWidth 8

/-- `HAS_RW`: the block has the read/write line (R8, R37). -/
def State.hasRw (s : State) : Bool := s.rw.isSome

/-- `BUSY`: 1 from the acceptance of an operation until its last statement, 0 otherwise (R39). -/
def State.busy (s : State) : Bit := if s.pending.isEmpty then 0 else 1

/-- The block is idle: no operation is running (R226). -/
abbrev State.Idle (s : State) : Prop := s.pending = []

/-- The configuration the block sampled at reset. -/
def State.config (s : State) : Config :=
  { strap := s.ptype, hasRw := s.hasRw, timing := s.timing, initNibbles := s.initNibbles }

/-- Status register `PINS` (R31): bit 6 `RW` (0 when the line is absent), bit 5 `RS`, bit 4 `E`, bits 3:0 `D`. -/
def State.pins (s : State) : Byte := (0 : Bit) ++ s.rw.getD 0 ++ s.rs ++ s.e ++ s.d

/-! ### One statement of pseudocode -/

/-- A pin write or a delay, appended to the trace (R14). On a block without the read/write line a write of `RW` does nothing and
leaves no event (R8, R37). -/
def emit (ev : Event) (s : State) : State :=
  match ev with
  | .setRS v => { s with rs := v, trace := s.trace ++ [ev] }
  | .setE v => { s with e := v, trace := s.trace ++ [ev] }
  | .setD v => { s with d := v, trace := s.trace ++ [ev] }
  | .setRW v =>
    { s with rw := s.rw.map fun _ => v, trace := if s.rw.isSome then s.trace ++ [ev] else s.trace }
  | .dly _ => { s with trace := s.trace ++ [ev] }

/-- One statement. The unimplemented bits of `ENTRY` and `DCTRL` discard what is written (R22, R25). -/
def perform (a : Act) (s : State) : State :=
  match a with
  | .emit ev => emit ev s
  | .setEntry v => { s with entryFlags := v.setWidth 2 }
  | .setDctrl v => { s with dctrlFlags := v.setWidth 3 }
  | .setCol v => { s with col := v }
  | .setRow v => { s with row := v }
  | .respond v => { s with resp := v }

/-- "Statements of pseudocode execute in the written order, one after the other" (R13). -/
def performAll : List Act → State → State
  | [], s => s
  | a :: rest, s => performAll rest (perform a s)

/-! ### The byte-transfer engine (R110 to R118) -/

/-- `v[7:4]`, the nibble sent first (R60, R113). -/
def upperNibble (v : Byte) : Nibble := (v >>> 4).setWidth 4

/-- `v[3:0]`, the nibble sent second (R60, R113). -/
def lowerNibble (v : Byte) : Nibble := (v &&& 0x0F).setWidth 4

/-- `delay(t)` (R13). -/
def delay (t : Nat) : List Act := [.emit (.dly t)]

/-- PULSE (R110). -/
def pulse (t : Timing) : List Act :=
  .emit (.setE 0) :: delay t.tPulse ++ .emit (.setE 1) :: delay t.tPulse ++ .emit (.setE 0) :: delay t.tPulse

/-- WRITENIB (R111). -/
def writeNib (t : Timing) (n : Nibble) : List Act := .emit (.setD n) :: pulse t

/-- WRITEBYTE (R112): it neither reads nor writes `RS`. -/
def writeByte (t : Timing) (v : Byte) : List Act :=
  writeNib t (upperNibble v) ++ writeNib t (lowerNibble v) ++ delay t.tSettle

/-- WRITECMD (R116). -/
def writeCmd (t : Timing) (v : Byte) : List Act := .emit (.setRS 0) :: writeByte t v

/-- WRITEDATA (R117). -/
def writeData (t : Timing) (v : Byte) : List Act := .emit (.setRS 1) :: writeByte t v

/-! ### Running an operation -/

/-- A whole operation as one atomic step that appends its whole trace (R16, R21). -/
def runOperation (plan : List Act) (s : State) : Host.Outcome State Fault Refusal := .next (performAll plan s)

/-- The moment an operation is accepted, at the finer grain of R18: nothing executed yet, `BUSY` 1 (R39). -/
def accept (plan : List Act) (s : State) : State := { s with pending := plan }

/-- One statement of the running operation, at the finer grain of R18. The port is not read (R39, R67). -/
def tick (s : State) : State :=
  match s.pending with
  | [] => s
  | a :: rest => perform a { s with pending := rest }

/-- The reset event on a running block (R230): the registers and the trace take their reset values, an operation in progress is
gone, the configuration is what it was (R235), and the words the host holds on its port are the host's (log entry 13). -/
def resetEvent (s : State) : State := { State.resetWith s.config with port := s.port }

end Sys2Proof.Machine
end

