-- ==== Sys2Proof/Machine/Operands.lean ====
section
/-! DEFINITION. The geometry table, the address translation (spec/20_memory.md R54 to R59), the strap codes (R30) and the
status-register file (R31). -/

namespace Sys2Proof.Machine

/-- One entry of the static table keyed by panel type (R54). -/
structure PanelGeometry where
  columns : Nat
  rows : Nat
  rowBase : List Nat
deriving DecidableEq, Repr

/-- The table of R54. -/
def geometry : PanelType → PanelGeometry
  | .lcd16x2 => { columns := 16, rows := 2, rowBase := [0x00, 0x40] }
  | .lcd20x2 => { columns := 20, rows := 2, rowBase := [0x00, 0x40] }
  | .lcd20x4 => { columns := 20, rows := 4, rowBase := [0x00, 0x40, 0x14, 0x54] }
  | .lcd40x2 => { columns := 40, rows := 2, rowBase := [0x00, 0x40] }
  | .lcd8x2 => { columns := 8, rows := 2, rowBase := [0x00, 0x40] }

/-- `columns()` (R55). -/
def columns (p : PanelType) : Nat := (geometry p).columns

/-- `rows()` (R55). -/
def rows (p : PanelType) : Nat := (geometry p).rows

/-- `base(r)` (R55): not defined for `r >= rows()`, where it is never evaluated. -/
def base (p : PanelType) (r : Nat) : Nat := (geometry p).rowBase.getD r 0

/-- `getAddress(c, r)` (R57): the sentinel 0xFF for a row out of range (R58), else the 8-bit sum with the set-DDRAM-address
command bit, with no check of the column (R59). -/
def getAddress (p : PanelType) (c r : Byte) : Byte :=
  if rows p ≤ r.toNat then 0xFF else BitVec.ofNat 8 (0x80 + base p r.toNat + c.toNat)

/-- The strap code of a panel type (R30). -/
def strapCode : PanelType → BitVec 3
  | .lcd16x2 => 0
  | .lcd20x2 => 1
  | .lcd20x4 => 2
  | .lcd40x2 => 3
  | .lcd8x2 => 4

/-- The panel type a strap selects; codes 5 to 7 are not valid strap values (R30) and are refused here
(spec/93_implementation_defined.md U6). -/
def panelOfStrap (code : BitVec 3) : Option PanelType :=
  match code with
  | 0#3 => some .lcd16x2
  | 1#3 => some .lcd20x2
  | 2#3 => some .lcd20x4
  | 3#3 => some .lcd40x2
  | 4#3 => some .lcd8x2
  | _ => none

/-- The reset of a block whose strap pins read `code`: `PTYPE` is sampled from them (R30, R230), the rest of the configuration is
`c`'s. A code that is no valid strap value gives no block (U6). -/
def resetFromStrap (code : BitVec 3) (c : Config) : Option State :=
  (panelOfStrap code).map fun p => State.resetWith { c with strap := p }

/-- Status register `n` (R31); 6 to 255 are reserved and read 0. -/
def statusRegister (n : Byte) (s : State) : Byte :=
  match n with
  | 0#8 => s.entry
  | 1#8 => s.dctrl
  | 2#8 => s.col
  | 3#8 => s.row
  | 4#8 => (strapCode s.ptype).setWidth 8
  | 5#8 => s.pins
  | _ => 0

/-- The row after `r` for a newline or a column wrap: `ROW + 1`, computed without 8-bit wrap, and 0 when that is at or beyond
`rows()` (R153, R155). -/
def nextRow (p : PanelType) (r : Byte) : Byte := if rows p ≤ r.toNat + 1 then 0 else r + 1

/-- The newline character (R10, R155). -/
def newline : Byte := 0x0A

end Sys2Proof.Machine
end

