-- ==== Sys2Proof/Machine/Flags.lean ====
section
/-! DEFINITION. The flag bits of `ENTRY` and `DCTRL` (R22 to R26), setting and clearing one of them (R170), and the controller
command bytes (R91 to R98). -/

namespace Sys2Proof.Machine

/-- `ENTRY.ID`, text direction (R23). -/
def bitID : Byte := 0x02

/-- `ENTRY.S`, autoscroll (R24). -/
def bitS : Byte := 0x01

/-- `DCTRL.D`, display on (R26). -/
def bitD : Byte := 0x04

/-- `DCTRL.C`, cursor shown (R26). -/
def bitC : Byte := 0x02

/-- `DCTRL.B`, blink on (R26). -/
def bitB : Byte := 0x01

/-- An ON-kind mode sets its bit (R170). -/
def setFlag (bit flags : Byte) : Byte := flags ||| bit

/-- An OFF-kind mode clears its bit (R170). -/
def clearFlag (bit flags : Byte) : Byte := flags &&& ~~~bit

/-- Clear-display (R94). -/
def cmdClearDisplay : Byte := 0x01

/-- Return-home (R94). -/
def cmdReturnHome : Byte := 0x02

/-- Entry-mode-set, `0x04 | ENTRY` (R92). -/
def cmdEntryMode (entry : Byte) : Byte := 0x04 ||| entry

/-- Display-control, `0x08 | DCTRL` (R93). -/
def cmdDisplayControl (dctrl : Byte) : Byte := 0x08 ||| dctrl

/-- Display shift to the left (R95). -/
def cmdShiftLeft : Byte := 0x18

/-- Display shift to the right (R95). -/
def cmdShiftRight : Byte := 0x1C

/-- Function-set: 4-bit bus, two lines when the panel has at least two rows (R96). -/
def cmdFunctionSet (p : PanelType) : Byte := 0x20 ||| (if 2 ≤ rows p then 0x08 else 0x00)

/-- Set-CGRAM-address, `0x40 | (slot << 3)` (R97). -/
def cmdCgramAddress (slot : Byte) : Byte := 0x40 ||| (slot <<< 3)

end Sys2Proof.Machine
end

