-- ==== Sys2Proof/Machine/Cursor.lean ====
section
/-! DEFINITION. LOCATE, PUTCAT, PUTC and GETC (spec/42_cursor_write.md). -/

namespace Sys2Proof.Machine

/-- The pseudocode of LOCATE (R150): no pin event and no range check. -/
def planLocate (col row : Byte) : List Act := [.setCol col, .setRow row] ++ [.respond 0]

/-- LOCATE (R150). -/
def execLocate (col row : Byte) (s : State) : Host.Outcome State Fault Refusal := runOperation (planLocate col row) s

/-- The positioned write (R151): set-DDRAM-address, then the glyph as data, with no check of the operands (R152). -/
def positionedWrite (s : State) (col row glyph : Byte) : List Act :=
  writeCmd s.timing (getAddress s.ptype col row) ++ writeData s.timing glyph

/-- The pseudocode of PUTCAT (R151). -/
def planPutcat (col row glyph : Byte) (s : State) : List Act := positionedWrite s col row glyph ++ [.respond 0]

/-- PUTCAT (R151). -/
def execPutcat (col row glyph : Byte) (s : State) : Host.Outcome State Fault Refusal :=
  runOperation (planPutcat col row glyph s) s

/-- Column 0 of the next row (R153, R155). -/
def newRow (s : State) : List Act := [.setCol 0, .setRow (nextRow s.ptype s.row)]

/-- The column advance of PUTC (R154): `COL + 1` is computed without 8-bit wrap, and reaching `columns()` goes to the next
row. -/
def advanceColumn (s : State) : List Act :=
  if columns s.ptype ≤ s.col.toNat + 1 then newRow s else [.setCol (s.col + 1)]

/-- The pseudocode of PUTC (R153): the newline test comes first (R217). -/
def planPutc (ch : Byte) (s : State) : List Act :=
  (if ch = newline then newRow s else positionedWrite s s.col s.row ch ++ advanceColumn s) ++ [.respond 0]

/-- PUTC (R153). -/
def execPutc (ch : Byte) (s : State) : Host.Outcome State Fault Refusal := runOperation (planPutc ch s) s

/-- `EMPTY`, "no data" (R100, R157). -/
def emptyResponse : Word := 0xFFFFFFFF

/-- The pseudocode of GETC (R157). -/
def planGetc : List Act := [.respond emptyResponse]

/-- GETC (R157). -/
def execGetc (s : State) : Host.Outcome State Fault Refusal := runOperation planGetc s

end Sys2Proof.Machine
end

