-- ==== Sys2Proof/Machine/Glyph.lean ====
section
/-! DEFINITION. DEFGLYPH (spec/44_glyph.md). -/

namespace Sys2Proof.Machine

/-- The bitmap bytes as sequential data writes, index order (R62, R190). -/
def writeBitmap (t : Timing) : List Byte → List Act
  | [] => []
  | b :: rest => writeData t b ++ writeBitmap t rest

/-- The pseudocode of DEFGLYPH (R190): a slot above 7 is rejected before anything else (R191, R217), and the mask comes after
the rejection, where it changes nothing. -/
def planDefglyph (slot : Byte) (bitmap : List Byte) (s : State) : List Act :=
  if 7 < slot.toNat then
    [.respond 0]
  else
    writeCmd s.timing (cmdCgramAddress (slot &&& 0x7)) ++ writeBitmap s.timing bitmap ++ [.respond 0]

/-- DEFGLYPH (R190). -/
def execDefglyph (slot : Byte) (bitmap : List Byte) (s : State) : Host.Outcome State Fault Refusal :=
  runOperation (planDefglyph slot bitmap s) s

end Sys2Proof.Machine
end

