-- ==== Sys2Proof/Machine/Mode.lean ====
section
/-! DEFINITION. SETMODE and its twelve modes (spec/43_setmode.md). -/

namespace Sys2Proof.Machine

/-- A display-control mode (R170): `DCTRL` takes the new flags, and the whole command is re-issued with all of them. -/
def displayMode (flags : Byte) (s : State) : List Act :=
  [.setDctrl flags] ++ writeCmd s.timing (cmdDisplayControl flags) ++ [.respond 0]

/-- An entry-mode mode (R170): `ENTRY` takes the new flags, and the whole command is re-issued with both of them. -/
def entryMode (flags : Byte) (s : State) : List Act :=
  [.setEntry flags] ++ writeCmd s.timing (cmdEntryMode flags) ++ [.respond 0]

/-- A scroll mode (R170, R177): one command, no register. -/
def scrollMode (cmd : Byte) (s : State) : List Act := writeCmd s.timing cmd ++ [.respond 0]

/-- The pseudocode of SETMODE DISPLAY_ON (R171). -/
def planSetmodeDisplayOn (s : State) : List Act := displayMode (setFlag bitD s.dctrl) s

/-- SETMODE DISPLAY_ON (R171). -/
def execSetmodeDisplayOn (s : State) : Host.Outcome State Fault Refusal := runOperation (planSetmodeDisplayOn s) s

/-- The pseudocode of SETMODE DISPLAY_OFF (R172). -/
def planSetmodeDisplayOff (s : State) : List Act := displayMode (clearFlag bitD s.dctrl) s

/-- SETMODE DISPLAY_OFF (R172). -/
def execSetmodeDisplayOff (s : State) : Host.Outcome State Fault Refusal := runOperation (planSetmodeDisplayOff s) s

/-- The pseudocode of SETMODE CURSOR_ON (R173). -/
def planSetmodeCursorOn (s : State) : List Act := displayMode (setFlag bitC s.dctrl) s

/-- SETMODE CURSOR_ON (R173). -/
def execSetmodeCursorOn (s : State) : Host.Outcome State Fault Refusal := runOperation (planSetmodeCursorOn s) s

/-- The pseudocode of SETMODE CURSOR_OFF (R174). -/
def planSetmodeCursorOff (s : State) : List Act := displayMode (clearFlag bitC s.dctrl) s

/-- SETMODE CURSOR_OFF (R174). -/
def execSetmodeCursorOff (s : State) : Host.Outcome State Fault Refusal := runOperation (planSetmodeCursorOff s) s

/-- The pseudocode of SETMODE BLINK_ON (R175). -/
def planSetmodeBlinkOn (s : State) : List Act := displayMode (setFlag bitB s.dctrl) s

/-- SETMODE BLINK_ON (R175). -/
def execSetmodeBlinkOn (s : State) : Host.Outcome State Fault Refusal := runOperation (planSetmodeBlinkOn s) s

/-- The pseudocode of SETMODE BLINK_OFF (R176). -/
def planSetmodeBlinkOff (s : State) : List Act := displayMode (clearFlag bitB s.dctrl) s

/-- SETMODE BLINK_OFF (R176). -/
def execSetmodeBlinkOff (s : State) : Host.Outcome State Fault Refusal := runOperation (planSetmodeBlinkOff s) s

/-- The pseudocode of SETMODE SCROLL_LEFT (R177). -/
def planSetmodeScrollLeft (s : State) : List Act := scrollMode cmdShiftLeft s

/-- SETMODE SCROLL_LEFT (R177). -/
def execSetmodeScrollLeft (s : State) : Host.Outcome State Fault Refusal := runOperation (planSetmodeScrollLeft s) s

/-- The pseudocode of SETMODE SCROLL_RIGHT (R178). -/
def planSetmodeScrollRight (s : State) : List Act := scrollMode cmdShiftRight s

/-- SETMODE SCROLL_RIGHT (R178). -/
def execSetmodeScrollRight (s : State) : Host.Outcome State Fault Refusal := runOperation (planSetmodeScrollRight s) s

/-- The pseudocode of SETMODE LEFT_TO_RIGHT (R179). -/
def planSetmodeLeftToRight (s : State) : List Act := entryMode (setFlag bitID s.entry) s

/-- SETMODE LEFT_TO_RIGHT (R179). -/
def execSetmodeLeftToRight (s : State) : Host.Outcome State Fault Refusal := runOperation (planSetmodeLeftToRight s) s

/-- The pseudocode of SETMODE RIGHT_TO_LEFT (R180). -/
def planSetmodeRightToLeft (s : State) : List Act := entryMode (clearFlag bitID s.entry) s

/-- SETMODE RIGHT_TO_LEFT (R180). -/
def execSetmodeRightToLeft (s : State) : Host.Outcome State Fault Refusal := runOperation (planSetmodeRightToLeft s) s

/-- The pseudocode of SETMODE AUTOSCROLL_ON (R181). -/
def planSetmodeAutoscrollOn (s : State) : List Act := entryMode (setFlag bitS s.entry) s

/-- SETMODE AUTOSCROLL_ON (R181). -/
def execSetmodeAutoscrollOn (s : State) : Host.Outcome State Fault Refusal := runOperation (planSetmodeAutoscrollOn s) s

/-- The pseudocode of SETMODE AUTOSCROLL_OFF (R182). -/
def planSetmodeAutoscrollOff (s : State) : List Act := entryMode (clearFlag bitS s.entry) s

/-- SETMODE AUTOSCROLL_OFF (R182). -/
def execSetmodeAutoscrollOff (s : State) : Host.Outcome State Fault Refusal := runOperation (planSetmodeAutoscrollOff s) s

end Sys2Proof.Machine
end

