-- ==== Sys2Proof/Machine/Query.lean ====
section
/-! DEFINITION. ROWS, COLS, ADDR and RDSR (spec/45_queries.md): they respond and do nothing else. -/

namespace Sys2Proof.Machine

/-- The pseudocode of ROWS (R200). -/
def planRows (s : State) : List Act := [.respond (BitVec.ofNat 32 (rows s.ptype))]

/-- ROWS (R200). -/
def execRows (s : State) : Host.Outcome State Fault Refusal := runOperation (planRows s) s

/-- The pseudocode of COLS (R201). -/
def planCols (s : State) : List Act := [.respond (BitVec.ofNat 32 (columns s.ptype))]

/-- COLS (R201). -/
def execCols (s : State) : Host.Outcome State Fault Refusal := runOperation (planCols s) s

/-- The pseudocode of ADDR (R202). -/
def planAddr (col row : Byte) (s : State) : List Act := [.respond ((getAddress s.ptype col row).setWidth 32)]

/-- ADDR (R202). -/
def execAddr (col row : Byte) (s : State) : Host.Outcome State Fault Refusal := runOperation (planAddr col row s) s

/-- The pseudocode of RDSR (R203). -/
def planRdsr (reg : Byte) (s : State) : List Act := [.respond ((statusRegister reg s).setWidth 32)]

/-- RDSR (R203). -/
def execRdsr (reg : Byte) (s : State) : Host.Outcome State Fault Refusal := runOperation (planRdsr reg s) s

end Sys2Proof.Machine
end

