-- ==== Sys2Proof/Machine/Setup.lean ====
section
/-! DEFINITION. INIT, CLEAR and HOME (spec/41_init_clear_home.md). -/

namespace Sys2Proof.Machine

/-- INIT's single nibbles (R99, R130): `T_INIT_GAP` after each of the first three, `T_SETTLE` after the fourth, if there is
one (R131). -/
def initNibblePhase (t : Timing) (n : InitNibbles) : List Act :=
  writeNib t n.first ++ delay t.tInitGap ++
  (writeNib t n.second ++ delay t.tInitGap) ++
  (writeNib t n.third ++ delay t.tInitGap) ++
  match n.fourth with
  | some x => writeNib t x ++ delay t.tSettle
  | none => []

/-- The pseudocode of INIT (R130). -/
def planInit (s : State) : List Act :=
  let t := s.timing
  (if s.hasRw then [.emit (.setRW 0)] else []) ++
  delay t.tPowerOn ++
  [.emit (.setRS 0)] ++
  initNibblePhase t s.initNibbles ++
  writeCmd t (cmdFunctionSet s.ptype) ++
  [.setDctrl 0x00] ++
  writeCmd t (cmdDisplayControl 0x00) ++
  (writeCmd t cmdClearDisplay ++ delay t.tLong) ++
  [.setCol 0, .setRow 0] ++
  [.setEntry 0x02] ++
  writeCmd t (cmdEntryMode 0x02) ++
  [.respond 0]

/-- INIT (R130). -/
def execInit (s : State) : Host.Outcome State Fault Refusal := runOperation (planInit s) s

/-- The pseudocode of CLEAR (R133). -/
def planClear (s : State) : List Act :=
  writeCmd s.timing cmdClearDisplay ++ delay s.timing.tLong ++ [.setCol 0, .setRow 0] ++ [.respond 0]

/-- CLEAR (R133). -/
def execClear (s : State) : Host.Outcome State Fault Refusal := runOperation (planClear s) s

/-- The pseudocode of HOME (R135), which resets the tracked position (spec/90_conflicts.md C3). -/
def planHome (s : State) : List Act :=
  writeCmd s.timing cmdReturnHome ++ delay s.timing.tLong ++ [.setCol 0, .setRow 0] ++ [.respond 0]

/-- HOME (R135). -/
def execHome (s : State) : Host.Outcome State Fault Refusal := runOperation (planHome s) s

end Sys2Proof.Machine
end

