-- ==== Sys2Proof/Machine/Dispatch.lean ====
section
/-! DEFINITION. One arm per instruction, each one direct call of its meaning. -/

namespace Sys2Proof.Machine

def exec (i : Instr) (s : State) : Host.Outcome State Fault Refusal :=
  match i with
  | .init => Sys2Proof.Machine.execInit s
  | .clear => Sys2Proof.Machine.execClear s
  | .home => Sys2Proof.Machine.execHome s
  | .locate col row => Sys2Proof.Machine.execLocate col row s
  | .putcat col row glyph => Sys2Proof.Machine.execPutcat col row glyph s
  | .putc ch => Sys2Proof.Machine.execPutc ch s
  | .defglyph slot bitmap => Sys2Proof.Machine.execDefglyph slot bitmap s
  | .getc => Sys2Proof.Machine.execGetc s
  | .setmodeDisplayOn => Sys2Proof.Machine.execSetmodeDisplayOn s
  | .setmodeDisplayOff => Sys2Proof.Machine.execSetmodeDisplayOff s
  | .setmodeCursorOn => Sys2Proof.Machine.execSetmodeCursorOn s
  | .setmodeCursorOff => Sys2Proof.Machine.execSetmodeCursorOff s
  | .setmodeBlinkOn => Sys2Proof.Machine.execSetmodeBlinkOn s
  | .setmodeBlinkOff => Sys2Proof.Machine.execSetmodeBlinkOff s
  | .setmodeScrollLeft => Sys2Proof.Machine.execSetmodeScrollLeft s
  | .setmodeScrollRight => Sys2Proof.Machine.execSetmodeScrollRight s
  | .setmodeLeftToRight => Sys2Proof.Machine.execSetmodeLeftToRight s
  | .setmodeRightToLeft => Sys2Proof.Machine.execSetmodeRightToLeft s
  | .setmodeAutoscrollOn => Sys2Proof.Machine.execSetmodeAutoscrollOn s
  | .setmodeAutoscrollOff => Sys2Proof.Machine.execSetmodeAutoscrollOff s
  | .rows => Sys2Proof.Machine.execRows s
  | .cols => Sys2Proof.Machine.execCols s
  | .addr col row => Sys2Proof.Machine.execAddr col row s
  | .rdsr reg => Sys2Proof.Machine.execRdsr reg s

end Sys2Proof.Machine
end

