-- ==== Sys2Proof/Machine/Sequencer.lean ====
section
/-! DEFINITION. The pseudocode of every operation, as the list of statements the sequencer executes (R21): the finer grain of
R18, at which `BUSY` is 1 between two statements. -/

namespace Sys2Proof.Machine

/-- The statements of an operation, from the state in which it is accepted. -/
def plan (i : Instr) (s : State) : List Act :=
  match i with
  | .init => planInit s
  | .clear => planClear s
  | .home => planHome s
  | .locate col row => planLocate col row
  | .putcat col row glyph => planPutcat col row glyph s
  | .putc ch => planPutc ch s
  | .defglyph slot bitmap => planDefglyph slot bitmap s
  | .getc => planGetc
  | .setmodeDisplayOn => planSetmodeDisplayOn s
  | .setmodeDisplayOff => planSetmodeDisplayOff s
  | .setmodeCursorOn => planSetmodeCursorOn s
  | .setmodeCursorOff => planSetmodeCursorOff s
  | .setmodeBlinkOn => planSetmodeBlinkOn s
  | .setmodeBlinkOff => planSetmodeBlinkOff s
  | .setmodeScrollLeft => planSetmodeScrollLeft s
  | .setmodeScrollRight => planSetmodeScrollRight s
  | .setmodeLeftToRight => planSetmodeLeftToRight s
  | .setmodeRightToLeft => planSetmodeRightToLeft s
  | .setmodeAutoscrollOn => planSetmodeAutoscrollOn s
  | .setmodeAutoscrollOff => planSetmodeAutoscrollOff s
  | .rows => planRows s
  | .cols => planCols s
  | .addr col row => planAddr col row s
  | .rdsr reg => planRdsr reg s

/-- An operation accepted and not yet begun: `BUSY` is 1, and `step` executes its statements one at a time (R39). -/
def acceptInstr (i : Instr) (s : State) : State := accept (plan i s) s

end Sys2Proof.Machine
end

