-- ==== Sys2Proof/Machine/Step.lean ====
section
/-! DEFINITION. One step of the block, and the host presenting one operation. -/

namespace Sys2Proof.Machine

/-- An idle block takes the next operation off its port and runs the whole of it (R16, R21); with no whole operation presented
it stays idle (R226), and a reserved word is refused (R88, U5). A block in the middle of an operation executes the operation's
next statement and accepts nothing (R39). -/
def step (s : State) : Host.Outcome State Fault Refusal :=
  match s.pending with
  | _ :: _ => .next (tick s)
  | [] =>
    match decode s.port with
    | .operation i rest => exec i { s with port := rest }
    | .reserved w => .refused (.reservedWord w)
    | .incomplete => .next s

/-- The host presents one operation, ahead of every other word, to an idle block: the very next step runs it. -/
def State.withFetchWord (s : State) (nbits w : Nat) : State :=
  { s with pending := [], port := tableWords nbits w ++ s.port }

end Sys2Proof.Machine
end

