-- ==== Sys2Proof/Machine/Views.lean ====
section
/-! DEFINITION. What is observed of the block (R14): the pin trace and the three views derived from it, the trace's sum of
delays, and the bus frames of R89 and R90. -/

namespace Sys2Proof.Machine

/-- The vector of the output pins. -/
structure PinState where
  rs : Bit
  rw : Option Bit
  e : Bit
  d : Nibble
deriving DecidableEq, Repr

/-- The pins as the registers drive them. -/
def State.pinState (s : State) : PinState := { rs := s.rs, rw := s.rw, e := s.e, d := s.d }

/-- The pins after reset: all 0, with or without the read/write line (R43). -/
def resetPins (hasRw : Bool) : PinState := { rs := 0, rw := if hasRw then some 0 else none, e := 0, d := 0 }

/-- The pins after one event. -/
def pinsAfter (p : PinState) : Event → PinState
  | .setRS v => { p with rs := v }
  | .setE v => { p with e := v }
  | .setD v => { p with d := v }
  | .setRW v => { p with rw := p.rw.map fun _ => v }
  | .dly _ => p

/-- The pins after a trace. -/
def replay (p : PinState) (evs : List Event) : PinState := evs.foldl pinsAfter p

/-- The delay an event stands for: 0 for a pin write. -/
def eventDelay : Event → Nat
  | .dly t => t
  | .setRS _ | .setE _ | .setD _ | .setRW _ => 0

/-- The sum of the delays of a trace, a lower bound on elapsed time (R223, R250). -/
def duration (evs : List Event) : Nat := (evs.map eventDelay).sum

/-- An entry of the pin-state sequence. -/
inductive PinEntry
  | pins (p : PinState)
  | wait (t : Nat)
deriving DecidableEq, Repr

/-- A summed delay, if any. -/
def waitEntry (t : Nat) : List PinEntry := if t = 0 then [] else [.wait t]

/-- The pin-state sequence from pins `p`, `t` microseconds after the last change: writes that change nothing dropped, adjacent
delays summed (R14). -/
def pinStateSequence (p : PinState) (t : Nat) : List Event → List PinEntry
  | [] => waitEntry t
  | ev :: evs =>
    if pinsAfter p ev = p then
      pinStateSequence p (t + eventDelay ev) evs
    else
      waitEntry t ++ .pins (pinsAfter p ev) :: pinStateSequence (pinsAfter p ev) 0 evs

/-- A latched nibble, with the sum of the delays since the latch before it. -/
structure Latch where
  rs : Bit
  d : Nibble
  wait : Nat
deriving DecidableEq, Repr

/-- `E` goes from 1 to 0 (R14). -/
def fallingEdge (p : PinState) (ev : Event) : Bool := p.e == 1 && (pinsAfter p ev).e == 0

/-- The latched-nibble sequence from pins `p`, `t` microseconds after the last latch: one entry for every 1-to-0 change of `E`
(R14). -/
def latchedNibbles (p : PinState) (t : Nat) : List Event → List Latch
  | [] => []
  | ev :: evs =>
    if fallingEdge p ev then
      { rs := (pinsAfter p ev).rs, d := (pinsAfter p ev).d, wait := t } :: latchedNibbles (pinsAfter p ev) 0 evs
    else
      latchedNibbles (pinsAfter p ev) (t + eventDelay ev) evs

/-- An entry of the byte sequence: `C:xx`, `D:xx` or `N:x` (R14). -/
inductive ByteItem
  | cmd (v : Byte)
  | data (v : Byte)
  | nib (n : Nibble)
deriving DecidableEq, Repr

/-- Two latched nibbles, first nibble high; no operation changes `RS` between them. -/
def pairNibbles (x y : Bit × Nibble) : List ByteItem :=
  if x.1 = 0 ∧ y.1 = 0 then [.cmd (x.2 ++ y.2)]
  else if x.1 = 1 ∧ y.1 = 1 then [.data (x.2 ++ y.2)]
  else [.nib x.2, .nib y.2]

/-- A nibble that nothing paired. -/
def loneNibble : Option (Bit × Nibble) → List ByteItem
  | some x => [.nib x.2]
  | none => []

/-- The byte sequence of a trace (R14), from pins `p`. `half` is a first nibble waiting for its second, and `gap` says that the
event before was a delay. WRITEBYTE sends its second nibble right after the first one's pulse (R112), so a second delay in a row
after a first nibble marks a nibble sent alone (R130; log entry 15). -/
def byteSequence (p : PinState) (half : Option (Bit × Nibble)) (gap : Bool) : List Event → List ByteItem
  | [] => []
  | .dly t :: evs =>
    if gap then loneNibble half ++ byteSequence (pinsAfter p (.dly t)) none true evs
    else byteSequence (pinsAfter p (.dly t)) half true evs
  | ev :: evs =>
    if fallingEdge p ev then
      match half with
      | some x =>
        pairNibbles x ((pinsAfter p ev).rs, (pinsAfter p ev).d) ++ byteSequence (pinsAfter p ev) none false evs
      | none => byteSequence (pinsAfter p ev) (some ((pinsAfter p ev).rs, (pinsAfter p ev).d)) false evs
    else byteSequence (pinsAfter p ev) half false evs

/-- The byte sequence that events add to a state. -/
def bytesFrom (s : State) (evs : List Event) : List ByteItem := byteSequence s.pinState none false evs

/-- The latched nibbles that events add to a state. -/
def latchesFrom (s : State) (evs : List Event) : List Latch := latchedNibbles s.pinState 0 evs

/-- One nibble on the bus: seven events (R89). -/
def nibbleFrame (t : Timing) (n : Nibble) : List Event :=
  [.setD n, .setE 0, .dly t.tPulse, .setE 1, .dly t.tPulse, .setE 0, .dly t.tPulse]

/-- One byte on the bus: two nibble frames and the settle delay, fifteen events (R90). -/
def byteFrame (t : Timing) (v : Byte) : List Event :=
  nibbleFrame t (v.extractLsb' 4 4) ++ nibbleFrame t (v.extractLsb' 0 4) ++ [.dly t.tSettle]

/-- A command byte on the bus (R90). -/
def cmdFrame (t : Timing) (v : Byte) : List Event := .setRS 0 :: byteFrame t v

/-- A data byte on the bus (R90). -/
def dataFrame (t : Timing) (v : Byte) : List Event := .setRS 1 :: byteFrame t v

/-- The events of a list of statements: what it appends to the trace of a block with (`hasRw`) or without the read/write
line. -/
def eventsOf (hasRw : Bool) : List Act → List Event
  | [] => []
  | .emit (.setRW v) :: rest => if hasRw then .setRW v :: eventsOf hasRw rest else eventsOf hasRw rest
  | .emit ev :: rest => ev :: eventsOf hasRw rest
  | .setEntry _ :: rest | .setDctrl _ :: rest | .setCol _ :: rest | .setRow _ :: rest | .respond _ :: rest =>
    eventsOf hasRw rest

end Sys2Proof.Machine
end

