-- ==== Sys2Proof/Safety.lean ====
section
/-! DEFINITION. What counts as a good state and as a good run, in the terms the statements use. Nothing the block does is an
error (R210), so safety is about the pins and the registers: the trace says what the pins hold, the enable line rests low, the
read/write line is never asserted, and the tracked cursor stays on the panel. -/

namespace Sys2Proof.Machine

/-- The invariant of the block, at both grains of R18. -/
structure State.Inv (s : State) : Prop where
  /-- Every pin holds what the trace last wrote to it since reset (R14, R34 to R37). -/
  traceSaysPins : replay (resetPins s.hasRw) s.trace = s.pinState
  /-- `E` is 0 whenever no operation is running (R35): it is 0 once the running operation's last statement has executed. -/
  enableRestsLow : (performAll s.pending s).e = 0
  /-- `RW` is 0 at all times (R37). -/
  writeModeHeld : ∀ v, s.rw = some v → v = 0
  /-- No statement still to execute writes 1 to `RW` (R37). -/
  writeModeKept : ∀ v, Act.emit (.setRW v) ∈ s.pending → v = 0
  /-- Without the line the trace never holds a write of it (R8, R37). -/
  absentLineSilent : s.rw = none → ∀ v, Event.setRW v ∉ s.trace

/-- The configuration is what it was (R235). -/
def SameConfig (s t : State) : Prop :=
  t.ptype = s.ptype ∧ t.hasRw = s.hasRw ∧ t.timing = s.timing ∧ t.initNibbles = s.initNibbles

/-- The tracked cursor is on the panel (R28, R29). -/
abbrev CursorInRange (s : State) : Prop := s.col.toNat < columns s.ptype ∧ s.row.toNat < rows s.ptype

/-- The column an instruction hands to the address translation, if it translates at all, is on the panel (the caller's duty of
R245); nothing is asked of the row. -/
def ColumnInRange (i : Instr) (s : State) : Prop :=
  (∀ col row glyph, i = .putcat col row glyph → col.toNat < columns s.ptype) ∧
  (∀ ch, i = .putc ch → s.col.toNat < columns s.ptype)

/-- A display-control mode's whole result (R170): `DCTRL` holds `flags`, one command byte carries them, nothing else changes. -/
def DisplayModeResult (flags : Byte) (s t : State) : Prop :=
  t.dctrl = flags ∧
  t = { s with
    dctrlFlags := t.dctrlFlags, rs := 0, e := 0, d := (0x08 ||| flags).extractLsb' 0 4, resp := 0,
    trace := s.trace ++ cmdFrame s.timing (0x08 ||| flags) }

/-- An entry-mode mode's whole result (R170): `ENTRY` holds `flags`, one command byte carries them, nothing else changes. -/
def EntryModeResult (flags : Byte) (s t : State) : Prop :=
  t.entry = flags ∧
  t = { s with
    entryFlags := t.entryFlags, rs := 0, e := 0, d := (0x04 ||| flags).extractLsb' 0 4, resp := 0,
    trace := s.trace ++ cmdFrame s.timing (0x04 ||| flags) }

/-- A nibble of INIT sent alone, with the wait after it (R99, R130). -/
def loneNibbleFrame (t : Timing) (gap : Nat) (n : Nibble) : List Event := nibbleFrame t n ++ [.dly gap]

/-- The whole pin trace of INIT (R130). -/
def initFrames (s : State) : List Event :=
  (if s.hasRw then [Event.setRW 0] else []) ++
  [.dly s.timing.tPowerOn, .setRS 0] ++
  loneNibbleFrame s.timing s.timing.tInitGap s.initNibbles.first ++
  loneNibbleFrame s.timing s.timing.tInitGap s.initNibbles.second ++
  loneNibbleFrame s.timing s.timing.tInitGap s.initNibbles.third ++
  (s.initNibbles.fourth.elim [] fun n => loneNibbleFrame s.timing s.timing.tSettle n) ++
  cmdFrame s.timing 0x28 ++ cmdFrame s.timing 0x08 ++
  cmdFrame s.timing 0x01 ++ [.dly s.timing.tLong] ++
  cmdFrame s.timing 0x06

/-- The data frames of a glyph, index order (R62). -/
def bitmapFrames (t : Timing) (bitmap : List Byte) : List Event := bitmap.flatMap (dataFrame t)

/-- A byte-sequence entry that is a whole byte. -/
def ByteItem.isByte : ByteItem → Bool
  | .cmd _ => true
  | .data _ => true
  | .nib _ => false

/-- One byte frame's minimum duration, `y` of R250. -/
def byteTime (t : Timing) : Nat := 6 * t.tPulse + t.tSettle

/-- INIT's minimum duration with the fourth nibble (R130, R250). -/
def initTime (t : Timing) : Nat :=
  t.tPowerOn + 3 * (3 * t.tPulse + t.tInitGap) + (3 * t.tPulse + t.tSettle) + 4 * byteTime t + t.tLong

/-- The minimum duration of every operation (the table of R250). -/
def operationTime (t : Timing) : Instr → Nat
  | .init => initTime t
  | .clear | .home => byteTime t + t.tLong
  | .putcat _ _ _ => 2 * byteTime t
  | .putc ch => if ch = 0x0A then 0 else 2 * byteTime t
  | .setmodeDisplayOn | .setmodeDisplayOff | .setmodeCursorOn | .setmodeCursorOff => byteTime t
  | .setmodeBlinkOn | .setmodeBlinkOff | .setmodeScrollLeft | .setmodeScrollRight => byteTime t
  | .setmodeLeftToRight | .setmodeRightToLeft | .setmodeAutoscrollOn | .setmodeAutoscrollOff => byteTime t
  | .defglyph slot _ => if slot.toNat ≤ 7 then 9 * byteTime t else 0
  | .locate _ _ | .getc | .rows | .cols | .addr _ _ | .rdsr _ => 0

/-- The number of whole bytes every operation sends (R65). -/
def operationBytes : Instr → Nat
  | .init => 4
  | .clear | .home => 1
  | .putcat _ _ _ => 2
  | .putc ch => if ch = 0x0A then 0 else 2
  | .setmodeDisplayOn | .setmodeDisplayOff | .setmodeCursorOn | .setmodeCursorOff => 1
  | .setmodeBlinkOn | .setmodeBlinkOff | .setmodeScrollLeft | .setmodeScrollRight => 1
  | .setmodeLeftToRight | .setmodeRightToLeft | .setmodeAutoscrollOn | .setmodeAutoscrollOff => 1
  | .defglyph slot _ => if slot.toNat ≤ 7 then 9 else 0
  | .locate _ _ | .getc | .rows | .cols | .addr _ _ | .rdsr _ => 0

/-- The words R88 reserves: an operation code outside the table of R85, or SETMODE with a mode number from 12. -/
abbrev Reserved (w : Word) : Prop :=
  (0x08 ≤ (w.extractLsb' 24 8).toNat ∧ (w.extractLsb' 24 8).toNat ≤ 0x0F) ∨
  (0x11 ≤ (w.extractLsb' 24 8).toNat ∧ (w.extractLsb' 24 8).toNat ≤ 0x1F) ∨
  0x24 ≤ (w.extractLsb' 24 8).toNat ∨
  ((w.extractLsb' 24 8).toNat = 0x10 ∧ 12 ≤ (w.extractLsb' 16 8).toNat)

end Sys2Proof.Machine
end

