-- ==== Sys2Proof/Certificates/Slice0/Obligations.lean ====
section
/-! DEFINITION. The statements for the provers. Each docstring names the rules of spec/ it formalises; where a clause rests on
one of the spec's own decisions (D<n> of spec/92_eei_decisions.md) or on a choice of the model's (a log entry), it says so. -/

open Sys2Proof Sys2Proof.Machine

/-! ### Words and instructions -/

/-- A word of every family, written out bit by bit from the table of R85 (the encoding is decision D2): the decoder reads the
instruction it stands for. -/
def Obligations.SampleWordsDecode : Prop :=
  decode [0x00ABCDEF#32] = .operation .init [] ∧
  decode [0x03130100#32] = .operation (.locate 19 1) [] ∧
  decode [0x0405020A#32] = .operation (.putcat 5 2 0x0A) [] ∧
  decode [0x0500005A#32] = .operation (.putc 0x5A) [] ∧
  decode [0x06010000#32, 0x0E1B1111#32, 0x11111F00#32] =
    .operation (.defglyph 1 [0x0E, 0x1B, 0x11, 0x11, 0x11, 0x11, 0x1F, 0x00]) [] ∧
  decode [0x1004FFFF#32] = .operation .setmodeBlinkOn [] ∧
  decode [0x22050200#32] = .operation (.addr 5 2) [] ∧
  decode [0x23010000#32] = .operation (.rdsr 1) []

/-- Decoding an encoded well-formed instruction gives it back, whatever words follow (R81 to R87, R101; decisions D2, D3). -/
def Obligations.DecodeOfEncode : Prop :=
  ∀ (i : Instr) (rest : List Word), i.wellFormed = true → decode (encode i ++ rest) = .operation i rest

/-- What the decoder reads is well-formed, and it takes exactly the words of the operation, a number told from the first word
alone: 3 for DEFGLYPH, else 1 (R83, decision D3). -/
def Obligations.DecodeTakesWholeOperation : Prop :=
  ∀ (ws rest : List Word) (i : Instr), decode ws = .operation i rest →
    i.wellFormed = true ∧
    ∃ w used, ws = w :: used ++ rest ∧ used.length + 1 = if w.extractLsb' 24 8 = 0x06 then 3 else 1

/-- The encoding table R85 with the operand fields of R81 and R84: every field an operation uses reaches it, and the fields it
does not use are ignored (R87). The encoding is decision D2, D3 and D5. -/
def Obligations.EncodingTable : Prop :=
  ∀ (w p0 p1 : Word) (rest : List Word),
    let op := w.extractLsb' 24 8
    let a := w.extractLsb' 16 8
    let b := w.extractLsb' 8 8
    let c := w.extractLsb' 0 8
    (op = 0x00 → decode (w :: rest) = .operation .init rest) ∧
    (op = 0x01 → decode (w :: rest) = .operation .clear rest) ∧
    (op = 0x02 → decode (w :: rest) = .operation .home rest) ∧
    (op = 0x03 → decode (w :: rest) = .operation (.locate a b) rest) ∧
    (op = 0x04 → decode (w :: rest) = .operation (.putcat a b c) rest) ∧
    (op = 0x05 → decode (w :: rest) = .operation (.putc c) rest) ∧
    (op = 0x06 → decode (w :: p0 :: p1 :: rest) =
      .operation (.defglyph a
        [p0.extractLsb' 24 8, p0.extractLsb' 16 8, p0.extractLsb' 8 8, p0.extractLsb' 0 8,
         p1.extractLsb' 24 8, p1.extractLsb' 16 8, p1.extractLsb' 8 8, p1.extractLsb' 0 8]) rest) ∧
    (op = 0x07 → decode (w :: rest) = .operation .getc rest) ∧
    (op = 0x10 → a = 0 → decode (w :: rest) = .operation .setmodeDisplayOn rest) ∧
    (op = 0x10 → a = 1 → decode (w :: rest) = .operation .setmodeDisplayOff rest) ∧
    (op = 0x10 → a = 2 → decode (w :: rest) = .operation .setmodeCursorOn rest) ∧
    (op = 0x10 → a = 3 → decode (w :: rest) = .operation .setmodeCursorOff rest) ∧
    (op = 0x10 → a = 4 → decode (w :: rest) = .operation .setmodeBlinkOn rest) ∧
    (op = 0x10 → a = 5 → decode (w :: rest) = .operation .setmodeBlinkOff rest) ∧
    (op = 0x10 → a = 6 → decode (w :: rest) = .operation .setmodeScrollLeft rest) ∧
    (op = 0x10 → a = 7 → decode (w :: rest) = .operation .setmodeScrollRight rest) ∧
    (op = 0x10 → a = 8 → decode (w :: rest) = .operation .setmodeLeftToRight rest) ∧
    (op = 0x10 → a = 9 → decode (w :: rest) = .operation .setmodeRightToLeft rest) ∧
    (op = 0x10 → a = 10 → decode (w :: rest) = .operation .setmodeAutoscrollOn rest) ∧
    (op = 0x10 → a = 11 → decode (w :: rest) = .operation .setmodeAutoscrollOff rest) ∧
    (op = 0x20 → decode (w :: rest) = .operation .rows rest) ∧
    (op = 0x21 → decode (w :: rest) = .operation .cols rest) ∧
    (op = 0x22 → decode (w :: rest) = .operation (.addr a b) rest) ∧
    (op = 0x23 → decode (w :: rest) = .operation (.rdsr a) rest)

/-- The decoder answers "not an operation" for the words R88 reserves and for no others; that a model refuses them is
spec/93_implementation_defined.md U5 (log entry 4). -/
def Obligations.ReservedWordsExactly : Prop :=
  ∀ (w : Word) (rest : List Word), decode (w :: rest) = .reserved w ↔ Reserved w

/-- An idle block refuses a reserved word by name (R88 as U5 tells a model to treat it; log entry 4). -/
def Obligations.ReservedWordIsRefused : Prop :=
  ∀ (s : State) (w : Word) (rest : List Word), s.Idle → s.port = w :: rest → Reserved w →
    step s = .refused (.reservedWord w)

/-! ### The step -/

/-- An idle block with a whole operation on its port runs exactly that operation, the words taken off the port (R16, R21; the
port as a list of words is log entry 2). -/
def Obligations.StepRunsDecodedOperation : Prop :=
  ∀ (s : State) (i : Instr) (rest : List Word), s.Idle → decode s.port = .operation i rest →
    i.wellFormed = true ∧ step s = exec i { s with port := rest }

/-- An idle block stays as it is while the host presents no word, or the first words of a DEFGLYPH and not yet all three
(R226, R83; log entries 2 and 3). -/
def Obligations.IdleBlockWaits : Prop :=
  ∀ s : State, s.Idle →
    (s.port = [] ∨ ∃ w rest, s.port = w :: rest ∧ w.extractLsb' 24 8 = 0x06 ∧ rest.length < 2) →
    step s = .next s

/-- A block in the middle of an operation executes that operation's next statement and accepts nothing: the words on the port
stay there (R39, R67; decisions D1 and D26; the finer grain is log entry 1). Each statement writes its one register or pin, or
waits, and changes nothing else (R13, R14); a write of `RW` does nothing on a block without the line (R8, R37), and the
unimplemented bits of `ENTRY` and `DCTRL` are dropped (R22, R25; decision D8). -/
def Obligations.BusyBlockAcceptsNothing : Prop :=
  ∀ (s : State) (a : Act) (rest : List Act), s.pending = a :: rest →
    ∃ t, step s = .next t ∧ t.port = s.port ∧ t.pending = rest ∧ SameConfig s t ∧
      t.trace = s.trace ++ eventsOf s.hasRw [a] ∧
      t = match a with
        | .emit (.setRS v) => { s with pending := rest, trace := t.trace, rs := v }
        | .emit (.setE v) => { s with pending := rest, trace := t.trace, e := v }
        | .emit (.setD v) => { s with pending := rest, trace := t.trace, d := v }
        | .emit (.setRW v) => { s with pending := rest, trace := t.trace, rw := if s.hasRw then some v else none }
        | .emit (.dly _) => { s with pending := rest, trace := t.trace }
        | .setEntry v => { s with pending := rest, entryFlags := v.extractLsb' 0 2 }
        | .setDctrl v => { s with pending := rest, dctrlFlags := v.extractLsb' 0 3 }
        | .setCol v => { s with pending := rest, col := v }
        | .setRow v => { s with pending := rest, row := v }
        | .respond v => { s with pending := rest, resp := v }

/-- Statement by statement or in one step, an operation ends in the same state (R21, R18; the two grains are log entry 1): from its
acceptance, as many steps as it has statements do what its one step does, the pin trace included. -/
def Obligations.StatementwiseRunIsAtomicRun : Prop :=
  ∀ (i : Instr) (s : State), s.Idle →
    Sys2Proof.core.run (plan i s).length (acceptInstr i s) = exec i s

/-- `BUSY` is 1 from the acceptance of an operation until its last statement, and the port and the configuration do not change
meanwhile; then it is 0 (R39, R67; decision D1; log entry 12). -/
def Obligations.BusyUntilLastStatement : Prop :=
  ∀ (i : Instr) (s : State), s.Idle →
    (∀ k, k < (plan i s).length →
      ∃ t, Sys2Proof.core.run k (acceptInstr i s) = .next t ∧ t.busy = 1 ∧ t.port = s.port ∧ SameConfig s t) ∧
    ∃ t, Sys2Proof.core.run (plan i s).length (acceptInstr i s) = .next t ∧ t.busy = 0

/-- "a call always runs to completion" (R218, R252): every operation answers a next state from every state, no operation
faults or is refused, and none touches the port, the sequencer or the configuration (R235). -/
def Obligations.EveryOperationCompletes : Prop :=
  ∀ (i : Instr) (s : State),
    ∃ t, exec i s = .next t ∧ t.pending = s.pending ∧ t.port = s.port ∧ SameConfig s t

/-- The block raises nothing (R210): no step faults, and a step is refused only for a reserved word on an idle block's port. -/
def Obligations.StepStopsOnlyOnReservedWord : Prop :=
  ∀ s : State,
    (∃ t, step s = .next t) ∨
    ∃ w rest, s.Idle ∧ s.port = w :: rest ∧ Reserved w ∧ step s = .refused (.reservedWord w)

/-! ### Reset and invariants -/

/-- The values of R43 (decision D15) for every configuration; the response register is the model's own (log entry 9), as are the
empty port (log entry 2) and the idle sequencer (log entry 12). -/
def Obligations.ResetValues : Prop :=
  ∀ c : Config,
    (State.resetWith c).entry = 0x02 ∧ (State.resetWith c).dctrl = 0x00 ∧
    (State.resetWith c).col = 0 ∧ (State.resetWith c).row = 0 ∧
    (State.resetWith c).rs = 0 ∧ (State.resetWith c).e = 0 ∧ (State.resetWith c).d = 0 ∧
    (State.resetWith c).rw = (if c.hasRw then some 0 else none) ∧
    (State.resetWith c).busy = 0 ∧ (State.resetWith c).config = c ∧
    (State.resetWith c).trace = [] ∧ (State.resetWith c).port = [] ∧ (State.resetWith c).resp = 0 ∧
    State.reset = State.resetWith Config.default

/-- `PTYPE` is sampled from the strap at reset (R30, R230; decision D6): the codes 0 to 4 each give a block whose status register
4 reads that code, and the codes 5 to 7, which are not valid strap values, give none (U6; log entry 5). -/
def Obligations.StrapIsSampledAtReset : Prop :=
  ∀ (code : BitVec 3) (c : Config),
    (code.toNat < 5 → ∃ s, resetFromStrap code c = some s ∧ statusRegister 4 s = code.setWidth 8 ∧
      s.hasRw = c.hasRw ∧ s.timing = c.timing ∧ s.initNibbles = c.initNibbles) ∧
    (5 ≤ code.toNat → resetFromStrap code c = none)

/-- A reset of a running block gives the registers, the handshake and the trace their reset values and keeps the configuration
(R230, R235; decision D15); that the host's words stay on the port is log entry 13. -/
def Obligations.ResetEventRestores : Prop :=
  ∀ s : State,
    resetEvent s = { State.resetWith s.config with port := s.port } ∧ (resetEvent s).busy = 0 ∧
    (resetEvent s).entry = 0x02 ∧ (resetEvent s).dctrl = 0x00 ∧ (resetEvent s).pins = 0 ∧ SameConfig s (resetEvent s)

/-- The invariant holds right after reset, for every configuration, and after a reset of a running block (R43, R230;
decision D15). -/
def Obligations.ResetMeetsInvariant : Prop :=
  (∀ c : Config, (State.resetWith c).Inv) ∧ ∀ s : State, (resetEvent s).Inv

/-- Every step, at either grain, keeps the invariant: the trace says what every pin holds (R14, R34 to R37), `E` rests low
(R35), `RW` is 0 at all times, and without the line its write never appears (R8, R37). -/
def Obligations.StepKeepsInvariant : Prop :=
  ∀ s t : State, s.Inv → step s = .next t → t.Inv

/-- The panel, the read/write line, the durations and the initial nibbles are fixed for the block's lifetime (R7, R235), and
the pin trace only grows: nothing in it is reordered, merged or dropped (R68). -/
def Obligations.StepKeepsConfigurationAndTrace : Prop :=
  ∀ s t : State, step s = .next t → SameConfig s t ∧ ∃ evs, t.trace = s.trace ++ evs

/-! ### The byte-transfer engine -/

/-- R113: `(v >> 4) * 16 + (v & 0xF) == v`, and the two nibbles are `v[7:4]` and `v[3:0]` (R60). -/
def Obligations.NibbleSplit : Prop :=
  ∀ v : Byte,
    upperNibble v = v.extractLsb' 4 4 ∧ lowerNibble v = v.extractLsb' 0 4 ∧
    (upperNibble v).toNat * 16 + (lowerNibble v).toNat = v.toNat

/-- WRITENIB (R111) and WRITEBYTE (R112) drive the data lines and pulse `E`, in the frames of R89 and R90, and touch nothing
else, `RS` included; WRITECMD (R116) and WRITEDATA (R117) set `RS` to 0 or 1 first. A nibble lasts at least `3 * T_PULSE`, a byte
at least `6 * T_PULSE + T_SETTLE`. The pulse of three levels (R110) is decision D11, the write of `RS` before every byte decision
D14 (log entry 18). -/
def Obligations.TransferEngine : Prop :=
  ∀ (s : State) (n : Nibble) (v : Byte),
    performAll (writeNib s.timing n) s =
      { s with d := n, e := 0, trace := s.trace ++ nibbleFrame s.timing n } ∧
    performAll (writeByte s.timing v) s =
      { s with d := v.extractLsb' 0 4, e := 0, trace := s.trace ++ byteFrame s.timing v } ∧
    performAll (writeCmd s.timing v) s =
      { s with rs := 0, d := v.extractLsb' 0 4, e := 0, trace := s.trace ++ cmdFrame s.timing v } ∧
    performAll (writeData s.timing v) s =
      { s with rs := 1, d := v.extractLsb' 0 4, e := 0, trace := s.trace ++ dataFrame s.timing v } ∧
    duration (nibbleFrame s.timing n) = 3 * s.timing.tPulse ∧
    duration (byteFrame s.timing v) = 6 * s.timing.tPulse + s.timing.tSettle

/-- What the controller latches (R14, R60, R112): from a resting enable line a byte frame is seen as two nibbles, the upper
first, with at least `3 * T_PULSE` between the two latches, and the byte sequence gains `C:xx` or `D:xx`. That the nibble is
latched at the fall of `E` is marked as general knowledge in R14. -/
def Obligations.FramesAreSeenAsBytes : Prop :=
  ∀ (s : State) (v : Byte), s.e = 0 →
    latchesFrom s (cmdFrame s.timing v) =
      [{ rs := 0, d := v.extractLsb' 4 4, wait := 2 * s.timing.tPulse },
       { rs := 0, d := v.extractLsb' 0 4, wait := 3 * s.timing.tPulse }] ∧
    bytesFrom s (cmdFrame s.timing v) = [.cmd v] ∧
    bytesFrom s (dataFrame s.timing v) = [.data v] ∧
    duration (cmdFrame s.timing v) = 6 * s.timing.tPulse + s.timing.tSettle ∧
    duration (dataFrame s.timing v) = 6 * s.timing.tPulse + s.timing.tSettle

/-! ### INIT, CLEAR, HOME -/

/-- INIT's whole effect from every state (R130): the registers, the pins and the pin trace. The nibble phase is decision D13, the
long wait and the cursor reset D27, the write of `RW` D7, the command values D9. -/
def Obligations.InitResult : Prop :=
  ∀ s : State,
    exec .init s = .next
      { s with
        entryFlags := 0b10, dctrlFlags := 0b000, col := 0, row := 0, rs := 0, e := 0, d := 0x6,
        rw := s.rw.map fun _ => 0, resp := 0, trace := s.trace ++ initFrames s }

/-- INIT as the controller sees it, with the default nibbles (R130; decision D13): executed from a resting enable line, it adds
`N:3 N:3 N:3 N:2 C:28 C:08 C:01 C:06` to the byte sequence. The command values are decision D9, how the byte sequence is read off
the trace log entry 15. -/
def Obligations.InitByteSequence : Prop :=
  ∀ s : State, s.e = 0 → s.initNibbles = InitNibbles.default →
    ∃ t evs, exec .init s = .next t ∧ t.trace = s.trace ++ evs ∧ bytesFrom s evs =
      [.nib 0x3, .nib 0x3, .nib 0x3, .nib 0x2, .cmd 0x28, .cmd 0x08, .cmd 0x01, .cmd 0x06]

/-- INIT does not depend on `COL`, `ROW`, `ENTRY` or `DCTRL` as they were (R132), nor on the pins `RS`, `E`, `D` or the last
response: two states that agree on the rest end in the same state. -/
def Obligations.InitForgetsTrackedState : Prop :=
  ∀ (s : State) (entry : BitVec 2) (dctrl : BitVec 3) (col row : Byte) (rs e : Bit) (d : Nibble) (resp : Word),
    exec .init
      { s with entryFlags := entry, dctrlFlags := dctrl, col := col, row := row, rs := rs, e := e, d := d, resp := resp } =
    exec .init s

/-- CLEAR (R133): the command byte 0x01, the long wait after it, the tracked position at (0,0), nothing else; seen as `C:01`,
lasting at least `6*T_PULSE + T_SETTLE + T_LONG`. -/
def Obligations.ClearResult : Prop :=
  ∀ s : State,
    exec .clear s = .next
      { s with
        col := 0, row := 0, rs := 0, e := 0, d := 0x1, resp := 0,
        trace := s.trace ++ (cmdFrame s.timing 0x01 ++ [.dly s.timing.tLong]) } ∧
    (s.e = 0 → bytesFrom s (cmdFrame s.timing 0x01 ++ [.dly s.timing.tLong]) = [.cmd 0x01]) ∧
    duration (cmdFrame s.timing 0x01 ++ [.dly s.timing.tLong]) =
      6 * s.timing.tPulse + s.timing.tSettle + s.timing.tLong

/-- HOME (R135): as CLEAR with the command byte 0x02. That the tracked position goes to (0,0) is the spec's decision D17
(spec/90_conflicts.md C3). -/
def Obligations.HomeResult : Prop :=
  ∀ s : State,
    exec .home s = .next
      { s with
        col := 0, row := 0, rs := 0, e := 0, d := 0x2, resp := 0,
        trace := s.trace ++ (cmdFrame s.timing 0x02 ++ [.dly s.timing.tLong]) } ∧
    (s.e = 0 → bytesFrom s (cmdFrame s.timing 0x02 ++ [.dly s.timing.tLong]) = [.cmd 0x02])

/-- R134: after a second CLEAR the tracked state is what it was after the first; on the pins the second one repeats the
first. -/
def Obligations.ClearTwice : Prop :=
  ∀ s : State, ∃ t u, exec .clear s = .next t ∧ exec .clear t = .next u ∧
    u.col = t.col ∧ u.row = t.row ∧ u.entry = t.entry ∧ u.dctrl = t.dctrl ∧ t.col = 0 ∧ t.row = 0 ∧
    ∃ evs, t.trace = s.trace ++ evs ∧ u.trace = s.trace ++ evs ++ evs ∧ evs ≠ []

/-! ### LOCATE, PUTCAT, PUTC, GETC -/

/-- LOCATE (R150): the tracked position takes the operands unchecked; no pin event, no delay, nothing else. -/
def Obligations.LocateResult : Prop :=
  ∀ (s : State) (col row : Byte), exec (.locate col row) s = .next { s with col := col, row := row, resp := 0 }

/-- PUTCAT (R151) for all operands, in range or not (R152): the set-DDRAM-address command, then the glyph byte as data, all 8
bits unchanged (decision D29); the tracked cursor is neither read nor written. -/
def Obligations.PutcatResult : Prop :=
  ∀ (s : State) (col row glyph : Byte),
    let evs := cmdFrame s.timing (getAddress s.ptype col row) ++ dataFrame s.timing glyph
    exec (.putcat col row glyph) s = .next
      { s with rs := 1, e := 0, d := glyph.extractLsb' 0 4, resp := 0, trace := s.trace ++ evs } ∧
    (s.e = 0 → bytesFrom s evs = [.cmd (getAddress s.ptype col row), .data glyph])

/-- PUTC (R153 to R155) for every byte and every tracked position: newline moves the cursor and touches no pin; any other byte is
written at the tracked position and the column advances, wrapping to the next row and the row to 0. The row wraps where
`ROW + 1` reaches `rows()` (spec/90_conflicts.md C5). The spec's own decisions: the wrap tests off the panel (D18), the newline's
code 0x0A (D19, log entry 18), the column going up whatever `ENTRY.ID` holds (D31), the unchecked address off the panel (D16, log
entry 14) and the unmasked data byte (D29, log entry 18). -/
def Obligations.PutcResult : Prop :=
  ∀ (s : State) (ch : Byte),
    let row' : Byte := if s.row.toNat + 1 ≥ rows s.ptype then 0 else BitVec.ofNat 8 (s.row.toNat + 1)
    let evs := cmdFrame s.timing (getAddress s.ptype s.col s.row) ++ dataFrame s.timing ch
    (ch = 0x0A → exec (.putc ch) s = .next { s with col := 0, row := row', resp := 0 }) ∧
    (ch ≠ 0x0A → s.col.toNat + 1 ≥ columns s.ptype →
      exec (.putc ch) s = .next
        { s with
          col := 0, row := row', rs := 1, e := 0, d := ch.extractLsb' 0 4, resp := 0, trace := s.trace ++ evs }) ∧
    (ch ≠ 0x0A → s.col.toNat + 1 < columns s.ptype →
      exec (.putc ch) s = .next
        { s with
          col := BitVec.ofNat 8 (s.col.toNat + 1), rs := 1, e := 0, d := ch.extractLsb' 0 4, resp := 0,
          trace := s.trace ++ evs }) ∧
    (s.e = 0 → bytesFrom s evs = [.cmd (getAddress s.ptype s.col s.row), .data ch]) ∧
    duration evs = 2 * (6 * s.timing.tPulse + s.timing.tSettle)

/-- GETC (R157) responds `EMPTY` in every state and does nothing else; the code 0xFFFFFFFF is decision D20. -/
def Obligations.GetcResult : Prop := ∀ s : State, exec .getc s = .next { s with resp := 0xFFFFFFFF }

/-- R28 and R29: a position outside the panel can be put there only by LOCATE; every other operation, started from a position
on the panel, leaves one on it. -/
def Obligations.OnlyLocateLeavesPanel : Prop :=
  ∀ (i : Instr) (s t : State), (∀ col row, i ≠ .locate col row) → CursorInRange s → exec i s = .next t →
    CursorInRange t

/-- R28 and R29: the tracked cursor moves only under INIT, CLEAR, HOME, LOCATE and PUTC. -/
def Obligations.OnlyCursorOperationsMoveCursor : Prop :=
  ∀ (i : Instr) (s t : State), exec i s = .next t → t.col ≠ s.col ∨ t.row ≠ s.row →
    i = .init ∨ i = .clear ∨ i = .home ∨ (∃ col row, i = .locate col row) ∨ ∃ ch, i = .putc ch

/-! ### SETMODE -/

/-- The six display-control modes (R171 to R176, common shape R170): each forces its own bit of `DCTRL` to the value in its
name, re-issues the display-control command with all the flags, and changes nothing else. -/
def Obligations.DisplayModeResults : Prop :=
  ∀ s : State,
    (∃ t, exec .setmodeDisplayOn s = .next t ∧ DisplayModeResult (s.dctrl ||| 0x04) s t) ∧
    (∃ t, exec .setmodeDisplayOff s = .next t ∧ DisplayModeResult (s.dctrl &&& ~~~0x04) s t) ∧
    (∃ t, exec .setmodeCursorOn s = .next t ∧ DisplayModeResult (s.dctrl ||| 0x02) s t) ∧
    (∃ t, exec .setmodeCursorOff s = .next t ∧ DisplayModeResult (s.dctrl &&& ~~~0x02) s t) ∧
    (∃ t, exec .setmodeBlinkOn s = .next t ∧ DisplayModeResult (s.dctrl ||| 0x01) s t) ∧
    (∃ t, exec .setmodeBlinkOff s = .next t ∧ DisplayModeResult (s.dctrl &&& ~~~0x01) s t)

/-- The four entry-mode modes (R179 to R182, common shape R170). -/
def Obligations.EntryModeResults : Prop :=
  ∀ s : State,
    (∃ t, exec .setmodeLeftToRight s = .next t ∧ EntryModeResult (s.entry ||| 0x02) s t) ∧
    (∃ t, exec .setmodeRightToLeft s = .next t ∧ EntryModeResult (s.entry &&& ~~~0x02) s t) ∧
    (∃ t, exec .setmodeAutoscrollOn s = .next t ∧ EntryModeResult (s.entry ||| 0x01) s t) ∧
    (∃ t, exec .setmodeAutoscrollOff s = .next t ∧ EntryModeResult (s.entry &&& ~~~0x01) s t)

/-- The two scroll modes (R177, R178): one command byte, 0x18 or 0x1C, and no register of the block changes but the pins. -/
def Obligations.ScrollModeResults : Prop :=
  ∀ s : State,
    exec .setmodeScrollLeft s = .next
      { s with rs := 0, e := 0, d := 0x8, resp := 0, trace := s.trace ++ cmdFrame s.timing 0x18 } ∧
    exec .setmodeScrollRight s = .next
      { s with rs := 0, e := 0, d := 0xC, resp := 0, trace := s.trace ++ cmdFrame s.timing 0x1C }

/-- R26 and R27: a flag bit of `DCTRL` changes only under INIT and the two modes that bear its name, and no other operation
writes a flag of `DCTRL` or `ENTRY` as a side effect. -/
def Obligations.FlagChangesOnlyUnderItsModes : Prop :=
  ∀ (i : Instr) (s t : State), exec i s = .next t →
    (t.dctrl[2] ≠ s.dctrl[2] → i = .init ∨ i = .setmodeDisplayOn ∨ i = .setmodeDisplayOff) ∧
    (t.dctrl[1] ≠ s.dctrl[1] → i = .init ∨ i = .setmodeCursorOn ∨ i = .setmodeCursorOff) ∧
    (t.dctrl[0] ≠ s.dctrl[0] → i = .init ∨ i = .setmodeBlinkOn ∨ i = .setmodeBlinkOff) ∧
    (t.entry[1] ≠ s.entry[1] → i = .init ∨ i = .setmodeLeftToRight ∨ i = .setmodeRightToLeft) ∧
    (t.entry[0] ≠ s.entry[0] → i = .init ∨ i = .setmodeAutoscrollOn ∨ i = .setmodeAutoscrollOff)

/-- R22 and R25: `ENTRY` reads as one of 0x00 to 0x03 and `DCTRL` as one of 0x00 to 0x07 in every state, also as RDSR reports
them; the unimplemented bits are decision D8. -/
def Obligations.UnimplementedFlagBitsReadZero : Prop :=
  ∀ s : State, s.entry.toNat ≤ 0x03 ∧ s.dctrl.toNat ≤ 0x07 ∧
    (∃ t, exec (.rdsr 0) s = .next t ∧ t.resp.toNat ≤ 0x03) ∧
    ∃ t, exec (.rdsr 1) s = .next t ∧ t.resp.toNat ≤ 0x07

/-- The source's own property (R26, R183): BLINK_ON then CURSOR_OFF leaves the blink flag set and the cursor flag clear, the
display flag as it was, each sending one command. -/
def Obligations.BlinkOnThenCursorOff : Prop :=
  ∀ s : State, ∃ t u, exec .setmodeBlinkOn s = .next t ∧ exec .setmodeCursorOff t = .next u ∧
    u.dctrl[0] = true ∧ u.dctrl[1] = false ∧ u.dctrl[2] = s.dctrl[2] ∧ u.entry = s.entry ∧
    u.trace = s.trace ++ cmdFrame s.timing (0x08 ||| t.dctrl) ++ cmdFrame s.timing (0x08 ||| u.dctrl)

/-! ### DEFGLYPH -/

/-- DEFGLYPH with a slot from 0 to 7 (R190): the set-CGRAM-address command of the slot, then the eight bitmap bytes in index
order as data, unchanged (decision D29); no tracked register changes. -/
def Obligations.DefglyphResult : Prop :=
  ∀ (s : State) (slot : Byte) (bitmap : List Byte), bitmap.length = 8 → slot.toNat ≤ 7 →
    let evs := cmdFrame s.timing (BitVec.ofNat 8 (0x40 + 8 * slot.toNat)) ++ bitmapFrames s.timing bitmap
    exec (.defglyph slot bitmap) s = .next
      { s with rs := 1, e := 0, d := (bitmap.getLastD 0).extractLsb' 0 4, resp := 0, trace := s.trace ++ evs } ∧
    (s.e = 0 → bytesFrom s evs = .cmd (BitVec.ofNat 8 (0x40 + 8 * slot.toNat)) :: bitmap.map .data)

/-- DEFGLYPH with a slot from 8 to 255 (R191): nothing but response 0, and the two payload words are consumed all the same. -/
def Obligations.DefglyphRejectsBadSlot : Prop :=
  ∀ (s : State) (slot : Byte) (bitmap : List Byte), 8 ≤ slot.toNat →
    exec (.defglyph slot bitmap) s = .next { s with resp := 0 } ∧
    ∀ (w p0 p1 : Word) (rest : List Word), s.Idle → s.port = w :: p0 :: p1 :: rest →
      w.extractLsb' 24 8 = 0x06 → w.extractLsb' 16 8 = slot →
      step s = .next { s with port := rest, resp := 0 }

/-! ### Geometry and queries -/

/-- The table of R54: columns, rows and row bases of the five panels, and exactly `rows` bases each; `base` (R55) reads them. -/
def Obligations.GeometryTable : Prop :=
  (columns .lcd16x2 = 16 ∧ rows .lcd16x2 = 2) ∧ (columns .lcd20x2 = 20 ∧ rows .lcd20x2 = 2) ∧
  (columns .lcd20x4 = 20 ∧ rows .lcd20x4 = 4) ∧ (columns .lcd40x2 = 40 ∧ rows .lcd40x2 = 2) ∧
  (columns .lcd8x2 = 8 ∧ rows .lcd8x2 = 2) ∧
  (geometry .lcd20x4).rowBase = [0x00, 0x40, 0x14, 0x54] ∧
  (∀ p, (geometry p).rowBase.length = rows p) ∧
  (∀ p r, p ≠ .lcd20x4 → r < rows p → base p r = r * 0x40) ∧
  base .lcd20x4 0 = 0x00 ∧ base .lcd20x4 1 = 0x40 ∧ base .lcd20x4 2 = 0x14 ∧ base .lcd20x4 3 = 0x54

/-- Address translation on the panel (R57, R54): `0x80 + base(r) + c`, never above 0xE7; on the 20x4 panel the discontinuous rows
`0x80 + c`, `0xC0 + c`, `0x94 + c`, `0xD4 + c` (S2 of spec/95_test_vectors.md), on the others `0x80 + r * 0x40 + c` (S3); two
different places on one panel have different addresses (R56). -/
def Obligations.AddressTranslationInRange : Prop :=
  ∀ (p : PanelType) (c r : Byte), c.toNat < columns p → r.toNat < rows p →
    (getAddress p c r).toNat = 0x80 + base p r.toNat + c.toNat ∧
    (p = .lcd20x4 → r = 0 → (getAddress p c r).toNat = 0x80 + c.toNat) ∧
    (p = .lcd20x4 → r = 1 → (getAddress p c r).toNat = 0xC0 + c.toNat) ∧
    (p = .lcd20x4 → r = 2 → (getAddress p c r).toNat = 0x94 + c.toNat) ∧
    (p = .lcd20x4 → r = 3 → (getAddress p c r).toNat = 0xD4 + c.toNat) ∧
    (p ≠ .lcd20x4 → (getAddress p c r).toNat = 0x80 + r.toNat * 0x40 + c.toNat) ∧
    (getAddress p c r).toNat ≤ 0xE7 ∧
    ∀ c' r' : Byte, c'.toNat < columns p → r'.toNat < rows p → getAddress p c r = getAddress p c' r' → c = c' ∧ r = r'

/-- Address translation off the panel: the sentinel 0xFF for a bad row whatever the column (R58), the unchecked 8-bit sum for a
bad column (R59); both are the spec's decision D16 (log entry 14). -/
def Obligations.AddressTranslationOutOfRange : Prop :=
  ∀ (p : PanelType) (c r : Byte),
    (rows p ≤ r.toNat → getAddress p c r = 0xFF) ∧
    (r.toNat < rows p → (getAddress p c r).toNat = (0x80 + base p r.toNat + c.toNat) % 256)

/-- ROWS and COLS (R200, R201) respond with the geometry and do nothing else, by panel type. -/
def Obligations.GeometryQueries : Prop :=
  ∀ s : State,
    exec .rows s = .next { s with resp := match s.ptype with
      | .lcd20x4 => 4
      | .lcd16x2 | .lcd20x2 | .lcd40x2 | .lcd8x2 => 2 } ∧
    exec .cols s = .next { s with resp := match s.ptype with
      | .lcd16x2 => 16
      | .lcd20x2 | .lcd20x4 => 20
      | .lcd40x2 => 40
      | .lcd8x2 => 8 }

/-- ADDR (R202) responds with the translation of its operands, zero-extended, and does nothing else; the value is the byte PUTCAT
sends as its command for the same operands. -/
def Obligations.AddrResult : Prop :=
  ∀ (s : State) (col row glyph : Byte),
    exec (.addr col row) s = .next { s with resp := (getAddress s.ptype col row).setWidth 32 } ∧
    ∃ t, exec (.putcat col row glyph) s = .next t ∧
      t.trace = s.trace ++ cmdFrame s.timing (getAddress s.ptype col row) ++ dataFrame s.timing glyph

/-- RDSR (R203, numbering R31; decision D21): each status register, 0 for the reserved numbers, and nothing else changes. -/
def Obligations.RdsrResult : Prop :=
  ∀ (s : State) (n : Byte),
    let v : Byte :=
      if n = 0 then (0 : BitVec 6) ++ s.entryFlags
      else if n = 1 then (0 : BitVec 5) ++ s.dctrlFlags
      else if n = 2 then s.col
      else if n = 3 then s.row
      else if n = 4 then (match s.ptype with
        | .lcd16x2 => 0
        | .lcd20x2 => 1
        | .lcd20x4 => 2
        | .lcd40x2 => 3
        | .lcd8x2 => 4)
      else if n = 5 then BitVec.ofNat 8
        (64 * (s.rw.getD 0).toNat + 32 * s.rs.toNat + 16 * s.e.toNat + s.d.toNat)
      else 0
    exec (.rdsr n) s = .next { s with resp := v.setWidth 32 }

/-- LOCATE followed by a read of the tracked state yields the operands, and the pin trace gains no event (R150, R203;
decision D21). -/
def Obligations.LocateThenRead : Prop :=
  ∀ (s : State) (c r : Byte), ∃ t u v,
    exec (.locate c r) s = .next t ∧ exec (.rdsr 2) t = .next u ∧ exec (.rdsr 3) u = .next v ∧
    u.resp = c.setWidth 32 ∧ v.resp = r.setWidth 32 ∧ v.trace = s.trace

/-! ### Whole-machine rules -/

/-- R65: the number of bytes an operation sends is fixed: what the controller sees, from a resting enable line. INIT's four
single nibbles come with the default nibbles. -/
def Obligations.BytesPerOperation : Prop :=
  ∀ (i : Instr) (s : State), i.wellFormed = true → s.e = 0 → s.initNibbles = InitNibbles.default →
    ∃ t evs, exec i s = .next t ∧ t.trace = s.trace ++ evs ∧
      (bytesFrom s evs).countP ByteItem.isByte = operationBytes i ∧
      (bytesFrom s evs).length = operationBytes i + if i = .init then 4 else 0

/-- R252: the number of events of an operation: 99 for INIT, 100 with the read/write line, 144 for an accepted DEFGLYPH, at
most 32 for every other operation. INIT's count is for a sequence with a fourth nibble. -/
def Obligations.EventsPerOperation : Prop :=
  ∀ (i : Instr) (s : State), i.wellFormed = true → s.initNibbles.fourth.isSome = true →
    ∃ t evs, exec i s = .next t ∧ t.trace = s.trace ++ evs ∧
      (i = .init → evs.length = if s.hasRw then 100 else 99) ∧
      (∀ slot bitmap, i = .defglyph slot bitmap → slot.toNat ≤ 7 → evs.length = 144) ∧
      (∀ slot bitmap, i = .defglyph slot bitmap → 7 < slot.toNat → evs.length ≤ 32) ∧
      (i ≠ .init → (∀ slot bitmap, i ≠ .defglyph slot bitmap) → evs.length ≤ 32)

/-- The duration table of R250 (derived there from R110 to R112): the sum of an operation's delays, a lower bound on elapsed
time, with no clock and no upper bound (R223; decisions D10, D32). -/
def Obligations.DurationPerOperation : Prop :=
  ∀ (i : Instr) (s : State), i.wellFormed = true → s.initNibbles.fourth.isSome = true →
    ∃ t evs, exec i s = .next t ∧ t.trace = s.trace ++ evs ∧ duration evs = operationTime s.timing i

/-- R115 and R37: no operation but INIT writes the read/write line, INIT only to 0 and only where the line exists, and where it
is 0 before an operation it is 0 after it (decision D7). -/
def Obligations.ReadWriteLine : Prop :=
  ∀ (i : Instr) (s : State), ∃ t evs, exec i s = .next t ∧ t.trace = s.trace ++ evs ∧
    (∀ v, Event.setRW v ∈ evs → i = .init ∧ v = 0 ∧ s.rw.isSome = true) ∧
    (s.rw = none → t.rw = none) ∧ (s.rw = some 0 → t.rw = some 0)

/-- R241, for a column on the panel: the command bytes 0x01 and 0x02 are sent only by INIT, CLEAR and HOME. Without the premise
the rule contradicts R59, which the model follows (log entry 14; the next statement). -/
def Obligations.SlowCommandsComeOnlyFromSlowOperations : Prop :=
  ∀ (i : Instr) (s t : State) (evs : List Event) (v : Byte),
    s.e = 0 → ColumnInRange i s → exec i s = .next t → t.trace = s.trace ++ evs →
    ByteItem.cmd v ∈ bytesFrom s evs → v = 0x01 ∨ v = 0x02 → i = .init ∨ i = .clear ∨ i = .home

/-- The unchecked sum of R59 (decision D16) at column 129 of row 0 is 0x01: PUTCAT then sends the clear-display byte with no
long wait (log entry 14, where R241 and R59 disagree). -/
def Obligations.UncheckedColumnCanSendClearDisplay : Prop :=
  ∀ (s : State) (glyph : Byte), ∃ t, exec (.putcat 129 0 glyph) s = .next t ∧
    t.trace = s.trace ++ cmdFrame s.timing 0x01 ++ dataFrame s.timing glyph ∧ t.col = s.col ∧ t.row = s.row

/-- R193, for a column on the panel: no operation sends a data byte without first sending a set-DDRAM-address (0x80 and above)
or set-CGRAM-address (0x40 to 0x7F) command; so what an operation sends holds no data at all or begins with one. -/
def Obligations.DataFollowsAddress : Prop :=
  ∀ (i : Instr) (s t : State) (evs : List Event),
    s.e = 0 → ColumnInRange i s → exec i s = .next t → t.trace = s.trace ++ evs →
    (∀ v, ByteItem.data v ∉ bytesFrom s evs) ∨
    ∃ v rest, bytesFrom s evs = .cmd v :: rest ∧ 0x40 ≤ v.toNat
end

