-- ==== Sys2Proof/Laws/Encoding.lean ====
section
/-! SUPPORT. The fields of format S, and the decoder on the words the encoder writes. -/

namespace Sys2Proof

/-- Bit `k` of a format S word (R81). -/
theorem getLsbD_opWord (op a b c : Byte) (k : Nat) :
    (opWord op a b c).getLsbD k =
      if k < 8 then c.getLsbD k
      else if k < 16 then b.getLsbD (k - 8)
      else if k < 24 then a.getLsbD (k - 16)
      else op.getLsbD (k - 24) := by
  have h : (opWord op a b c).getLsbD k =
      if k < 8 then c.getLsbD k else (op ++ a ++ b : BitVec (8 + 8 + 8)).getLsbD (k - 8) :=
    BitVec.getLsbD_append (x := op ++ a ++ b) (y := c)
  rw [h, BitVec.getLsbD_append, BitVec.getLsbD_append]
  grind

@[simp] theorem opField_opWord (op a b c : Byte) : opField (opWord op a b c) = op := by
  apply BitVec.eq_of_getLsbD_eq
  intro i hi
  rw [opField, BitVec.getLsbD_extractLsb', getLsbD_opWord]
  simp [hi, show ¬24 + i < 8 by omega, show ¬24 + i < 16 by omega]

@[simp] theorem aField_opWord (op a b c : Byte) : aField (opWord op a b c) = a := by
  apply BitVec.eq_of_getLsbD_eq
  intro i hi
  rw [aField, BitVec.getLsbD_extractLsb', getLsbD_opWord]
  simp [hi, show ¬16 + i < 8 by omega, show 16 + i < 24 by omega]

@[simp] theorem bField_opWord (op a b c : Byte) : bField (opWord op a b c) = b := by
  apply BitVec.eq_of_getLsbD_eq
  intro i hi
  rw [bField, BitVec.getLsbD_extractLsb', getLsbD_opWord]
  simp [hi, show 8 + i < 16 by omega]

@[simp] theorem cField_opWord (op a b c : Byte) : cField (opWord op a b c) = c := by
  apply BitVec.eq_of_getLsbD_eq
  intro i hi
  rw [cField, BitVec.getLsbD_extractLsb', getLsbD_opWord]
  simp [hi]

/-- A payload word gives back the four bytes it was built from (R84). -/
@[simp] theorem payloadBytes_payloadWord (bitmap : List Byte) (k : Nat) :
    payloadBytes (payloadWord bitmap k) =
      [bitmap.getD k 0, bitmap.getD (k + 1) 0, bitmap.getD (k + 2) 0, bitmap.getD (k + 3) 0] := by
  simp [payloadBytes, payloadWord]

/-- The decoder on a one-word operation. -/
theorem decode_of_decodeOne {w : Word} {i : Instr} (rest : List Word) (h6 : opField w ≠ 0x06)
    (h : decodeOne (opField w) (aField w) (bField w) (cField w) = some i) :
    decode (w :: rest) = .operation i rest := by
  rw [decode, if_neg h6, h]

/-- The decoder on DEFGLYPH's three words (R83). -/
theorem decode_glyph {w : Word} (p0 p1 : Word) (rest : List Word) (h6 : opField w = 0x06) :
    decode (w :: p0 :: p1 :: rest) =
      .operation (.defglyph (aField w) (payloadBytes p0 ++ payloadBytes p1)) rest := by
  simp [decode, h6, decodeGlyph]

/-- The decoder on a word whose `op`, `a`, `b`, `c` are no operation (R88). -/
theorem decode_reserved {w : Word} (rest : List Word) (h6 : opField w ≠ 0x06)
    (h : decodeOne (opField w) (aField w) (bField w) (cField w) = none) :
    decode (w :: rest) = .reserved w := by
  rw [decode, if_neg h6, h]

/-- DEFGLYPH's first word with a payload word missing. -/
theorem decode_glyph_short {w : Word} (rest : List Word) (h6 : opField w = 0x06) (h : rest.length < 2) :
    decode (w :: rest) = .incomplete := by
  match rest, h with
  | [], _ => simp [decode, h6, decodeGlyph]
  | [_], _ => simp [decode, h6, decodeGlyph]

/-- Everything the decoder can answer with an operation (R83): a one-word operation that the table has, or DEFGLYPH with its two
payload words. -/
theorem decode_cases {ws rest : List Word} {i : Instr} (h : decode ws = .operation i rest) :
    (∃ w, ws = w :: rest ∧ opField w ≠ 0x06 ∧
      decodeOne (opField w) (aField w) (bField w) (cField w) = some i) ∨
    ∃ w p0 p1, ws = w :: p0 :: p1 :: rest ∧ opField w = 0x06 ∧
      i = .defglyph (aField w) (payloadBytes p0 ++ payloadBytes p1) := by
  unfold decode at h
  split at h
  · cases h
  · rename_i w tail
    split at h
    · rename_i h6
      unfold decodeGlyph at h
      split at h
      · cases h
        exact .inr ⟨w, _, _, rfl, h6, rfl⟩
      · cases h
      · cases h
    · rename_i h6
      split at h
      · rename_i j hj
        cases h
        exact .inl ⟨w, rfl, h6, hj⟩
      · cases h

/-- No one-word operation is a DEFGLYPH, so each is well-formed. -/
theorem decodeOne_wellFormed {op a b c : Byte} {i : Instr} (h : decodeOne op a b c = some i) :
    i.wellFormed = true := by
  unfold decodeOne at h
  split at h
  case h_8 =>
    unfold decodeMode at h
    split at h <;> cases h <;> rfl
  all_goals cases h <;> rfl

end Sys2Proof
end

