-- ==== Sys2Proof/Laws/State.lean ====
section
/-! SUPPORT. What each state update leaves in each field, all true by `rfl`, so that no proof unfolds a record update. The fields
no statement of pseudocode writes (the configuration, the port, the sequencer) come first, once for all statements. -/

namespace Sys2Proof.Machine

@[simp] theorem perform_emit (ev : Event) (s : State) : perform (.emit ev) s = emit ev s := rfl

@[simp] theorem emit_ptype (ev : Event) (s : State) : (emit ev s).ptype = s.ptype := by cases ev <;> rfl

@[simp] theorem perform_ptype (a : Act) (s : State) : (perform a s).ptype = s.ptype := by
  cases a <;> first | exact emit_ptype _ s | rfl

@[simp] theorem emit_timing (ev : Event) (s : State) : (emit ev s).timing = s.timing := by cases ev <;> rfl

@[simp] theorem perform_timing (a : Act) (s : State) : (perform a s).timing = s.timing := by
  cases a <;> first | exact emit_timing _ s | rfl

@[simp] theorem emit_initNibbles (ev : Event) (s : State) : (emit ev s).initNibbles = s.initNibbles := by cases ev <;> rfl

@[simp] theorem perform_initNibbles (a : Act) (s : State) : (perform a s).initNibbles = s.initNibbles := by
  cases a <;> first | exact emit_initNibbles _ s | rfl

@[simp] theorem emit_pending (ev : Event) (s : State) : (emit ev s).pending = s.pending := by cases ev <;> rfl

@[simp] theorem perform_pending (a : Act) (s : State) : (perform a s).pending = s.pending := by
  cases a <;> first | exact emit_pending _ s | rfl

@[simp] theorem emit_port (ev : Event) (s : State) : (emit ev s).port = s.port := by cases ev <;> rfl

@[simp] theorem perform_port (a : Act) (s : State) : (perform a s).port = s.port := by
  cases a <;> first | exact emit_port _ s | rfl

@[simp] theorem emit_setRS_entryFlags (v : Bit) (s : State) : (emit (.setRS v) s).entryFlags = s.entryFlags := rfl
@[simp] theorem emit_setRS_dctrlFlags (v : Bit) (s : State) : (emit (.setRS v) s).dctrlFlags = s.dctrlFlags := rfl
@[simp] theorem emit_setRS_col (v : Bit) (s : State) : (emit (.setRS v) s).col = s.col := rfl
@[simp] theorem emit_setRS_row (v : Bit) (s : State) : (emit (.setRS v) s).row = s.row := rfl
@[simp] theorem emit_setRS_rs (v : Bit) (s : State) : (emit (.setRS v) s).rs = v := rfl
@[simp] theorem emit_setRS_e (v : Bit) (s : State) : (emit (.setRS v) s).e = s.e := rfl
@[simp] theorem emit_setRS_d (v : Bit) (s : State) : (emit (.setRS v) s).d = s.d := rfl
@[simp] theorem emit_setRS_rw (v : Bit) (s : State) : (emit (.setRS v) s).rw = s.rw := rfl
@[simp] theorem emit_setRS_resp (v : Bit) (s : State) : (emit (.setRS v) s).resp = s.resp := rfl
@[simp] theorem emit_setRS_trace (v : Bit) (s : State) : (emit (.setRS v) s).trace = s.trace ++ [.setRS v] := rfl

@[simp] theorem emit_setE_entryFlags (v : Bit) (s : State) : (emit (.setE v) s).entryFlags = s.entryFlags := rfl
@[simp] theorem emit_setE_dctrlFlags (v : Bit) (s : State) : (emit (.setE v) s).dctrlFlags = s.dctrlFlags := rfl
@[simp] theorem emit_setE_col (v : Bit) (s : State) : (emit (.setE v) s).col = s.col := rfl
@[simp] theorem emit_setE_row (v : Bit) (s : State) : (emit (.setE v) s).row = s.row := rfl
@[simp] theorem emit_setE_rs (v : Bit) (s : State) : (emit (.setE v) s).rs = s.rs := rfl
@[simp] theorem emit_setE_e (v : Bit) (s : State) : (emit (.setE v) s).e = v := rfl
@[simp] theorem emit_setE_d (v : Bit) (s : State) : (emit (.setE v) s).d = s.d := rfl
@[simp] theorem emit_setE_rw (v : Bit) (s : State) : (emit (.setE v) s).rw = s.rw := rfl
@[simp] theorem emit_setE_resp (v : Bit) (s : State) : (emit (.setE v) s).resp = s.resp := rfl
@[simp] theorem emit_setE_trace (v : Bit) (s : State) : (emit (.setE v) s).trace = s.trace ++ [.setE v] := rfl

@[simp] theorem emit_setD_entryFlags (v : Nibble) (s : State) : (emit (.setD v) s).entryFlags = s.entryFlags := rfl
@[simp] theorem emit_setD_dctrlFlags (v : Nibble) (s : State) : (emit (.setD v) s).dctrlFlags = s.dctrlFlags := rfl
@[simp] theorem emit_setD_col (v : Nibble) (s : State) : (emit (.setD v) s).col = s.col := rfl
@[simp] theorem emit_setD_row (v : Nibble) (s : State) : (emit (.setD v) s).row = s.row := rfl
@[simp] theorem emit_setD_rs (v : Nibble) (s : State) : (emit (.setD v) s).rs = s.rs := rfl
@[simp] theorem emit_setD_e (v : Nibble) (s : State) : (emit (.setD v) s).e = s.e := rfl
@[simp] theorem emit_setD_d (v : Nibble) (s : State) : (emit (.setD v) s).d = v := rfl
@[simp] theorem emit_setD_rw (v : Nibble) (s : State) : (emit (.setD v) s).rw = s.rw := rfl
@[simp] theorem emit_setD_resp (v : Nibble) (s : State) : (emit (.setD v) s).resp = s.resp := rfl
@[simp] theorem emit_setD_trace (v : Nibble) (s : State) : (emit (.setD v) s).trace = s.trace ++ [.setD v] := rfl

@[simp] theorem emit_setRW_entryFlags (v : Bit) (s : State) : (emit (.setRW v) s).entryFlags = s.entryFlags := rfl
@[simp] theorem emit_setRW_dctrlFlags (v : Bit) (s : State) : (emit (.setRW v) s).dctrlFlags = s.dctrlFlags := rfl
@[simp] theorem emit_setRW_col (v : Bit) (s : State) : (emit (.setRW v) s).col = s.col := rfl
@[simp] theorem emit_setRW_row (v : Bit) (s : State) : (emit (.setRW v) s).row = s.row := rfl
@[simp] theorem emit_setRW_rs (v : Bit) (s : State) : (emit (.setRW v) s).rs = s.rs := rfl
@[simp] theorem emit_setRW_e (v : Bit) (s : State) : (emit (.setRW v) s).e = s.e := rfl
@[simp] theorem emit_setRW_d (v : Bit) (s : State) : (emit (.setRW v) s).d = s.d := rfl
@[simp] theorem emit_setRW_rw (v : Bit) (s : State) : (emit (.setRW v) s).rw = s.rw.map fun _ => v := rfl
@[simp] theorem emit_setRW_resp (v : Bit) (s : State) : (emit (.setRW v) s).resp = s.resp := rfl
@[simp] theorem emit_setRW_trace (v : Bit) (s : State) : (emit (.setRW v) s).trace = if s.rw.isSome then s.trace ++ [.setRW v] else s.trace := rfl

@[simp] theorem emit_dly_entryFlags (v : Nat) (s : State) : (emit (.dly v) s).entryFlags = s.entryFlags := rfl
@[simp] theorem emit_dly_dctrlFlags (v : Nat) (s : State) : (emit (.dly v) s).dctrlFlags = s.dctrlFlags := rfl
@[simp] theorem emit_dly_col (v : Nat) (s : State) : (emit (.dly v) s).col = s.col := rfl
@[simp] theorem emit_dly_row (v : Nat) (s : State) : (emit (.dly v) s).row = s.row := rfl
@[simp] theorem emit_dly_rs (v : Nat) (s : State) : (emit (.dly v) s).rs = s.rs := rfl
@[simp] theorem emit_dly_e (v : Nat) (s : State) : (emit (.dly v) s).e = s.e := rfl
@[simp] theorem emit_dly_d (v : Nat) (s : State) : (emit (.dly v) s).d = s.d := rfl
@[simp] theorem emit_dly_rw (v : Nat) (s : State) : (emit (.dly v) s).rw = s.rw := rfl
@[simp] theorem emit_dly_resp (v : Nat) (s : State) : (emit (.dly v) s).resp = s.resp := rfl
@[simp] theorem emit_dly_trace (v : Nat) (s : State) : (emit (.dly v) s).trace = s.trace ++ [.dly v] := rfl

@[simp] theorem perform_setEntry_entryFlags (v : Byte) (s : State) : (perform (.setEntry v) s).entryFlags = v.setWidth 2 := rfl
@[simp] theorem perform_setEntry_dctrlFlags (v : Byte) (s : State) : (perform (.setEntry v) s).dctrlFlags = s.dctrlFlags := rfl
@[simp] theorem perform_setEntry_col (v : Byte) (s : State) : (perform (.setEntry v) s).col = s.col := rfl
@[simp] theorem perform_setEntry_row (v : Byte) (s : State) : (perform (.setEntry v) s).row = s.row := rfl
@[simp] theorem perform_setEntry_rs (v : Byte) (s : State) : (perform (.setEntry v) s).rs = s.rs := rfl
@[simp] theorem perform_setEntry_e (v : Byte) (s : State) : (perform (.setEntry v) s).e = s.e := rfl
@[simp] theorem perform_setEntry_d (v : Byte) (s : State) : (perform (.setEntry v) s).d = s.d := rfl
@[simp] theorem perform_setEntry_rw (v : Byte) (s : State) : (perform (.setEntry v) s).rw = s.rw := rfl
@[simp] theorem perform_setEntry_resp (v : Byte) (s : State) : (perform (.setEntry v) s).resp = s.resp := rfl
@[simp] theorem perform_setEntry_trace (v : Byte) (s : State) : (perform (.setEntry v) s).trace = s.trace := rfl

@[simp] theorem perform_setDctrl_entryFlags (v : Byte) (s : State) : (perform (.setDctrl v) s).entryFlags = s.entryFlags := rfl
@[simp] theorem perform_setDctrl_dctrlFlags (v : Byte) (s : State) : (perform (.setDctrl v) s).dctrlFlags = v.setWidth 3 := rfl
@[simp] theorem perform_setDctrl_col (v : Byte) (s : State) : (perform (.setDctrl v) s).col = s.col := rfl
@[simp] theorem perform_setDctrl_row (v : Byte) (s : State) : (perform (.setDctrl v) s).row = s.row := rfl
@[simp] theorem perform_setDctrl_rs (v : Byte) (s : State) : (perform (.setDctrl v) s).rs = s.rs := rfl
@[simp] theorem perform_setDctrl_e (v : Byte) (s : State) : (perform (.setDctrl v) s).e = s.e := rfl
@[simp] theorem perform_setDctrl_d (v : Byte) (s : State) : (perform (.setDctrl v) s).d = s.d := rfl
@[simp] theorem perform_setDctrl_rw (v : Byte) (s : State) : (perform (.setDctrl v) s).rw = s.rw := rfl
@[simp] theorem perform_setDctrl_resp (v : Byte) (s : State) : (perform (.setDctrl v) s).resp = s.resp := rfl
@[simp] theorem perform_setDctrl_trace (v : Byte) (s : State) : (perform (.setDctrl v) s).trace = s.trace := rfl

@[simp] theorem perform_setCol_entryFlags (v : Byte) (s : State) : (perform (.setCol v) s).entryFlags = s.entryFlags := rfl
@[simp] theorem perform_setCol_dctrlFlags (v : Byte) (s : State) : (perform (.setCol v) s).dctrlFlags = s.dctrlFlags := rfl
@[simp] theorem perform_setCol_col (v : Byte) (s : State) : (perform (.setCol v) s).col = v := rfl
@[simp] theorem perform_setCol_row (v : Byte) (s : State) : (perform (.setCol v) s).row = s.row := rfl
@[simp] theorem perform_setCol_rs (v : Byte) (s : State) : (perform (.setCol v) s).rs = s.rs := rfl
@[simp] theorem perform_setCol_e (v : Byte) (s : State) : (perform (.setCol v) s).e = s.e := rfl
@[simp] theorem perform_setCol_d (v : Byte) (s : State) : (perform (.setCol v) s).d = s.d := rfl
@[simp] theorem perform_setCol_rw (v : Byte) (s : State) : (perform (.setCol v) s).rw = s.rw := rfl
@[simp] theorem perform_setCol_resp (v : Byte) (s : State) : (perform (.setCol v) s).resp = s.resp := rfl
@[simp] theorem perform_setCol_trace (v : Byte) (s : State) : (perform (.setCol v) s).trace = s.trace := rfl

@[simp] theorem perform_setRow_entryFlags (v : Byte) (s : State) : (perform (.setRow v) s).entryFlags = s.entryFlags := rfl
@[simp] theorem perform_setRow_dctrlFlags (v : Byte) (s : State) : (perform (.setRow v) s).dctrlFlags = s.dctrlFlags := rfl
@[simp] theorem perform_setRow_col (v : Byte) (s : State) : (perform (.setRow v) s).col = s.col := rfl
@[simp] theorem perform_setRow_row (v : Byte) (s : State) : (perform (.setRow v) s).row = v := rfl
@[simp] theorem perform_setRow_rs (v : Byte) (s : State) : (perform (.setRow v) s).rs = s.rs := rfl
@[simp] theorem perform_setRow_e (v : Byte) (s : State) : (perform (.setRow v) s).e = s.e := rfl
@[simp] theorem perform_setRow_d (v : Byte) (s : State) : (perform (.setRow v) s).d = s.d := rfl
@[simp] theorem perform_setRow_rw (v : Byte) (s : State) : (perform (.setRow v) s).rw = s.rw := rfl
@[simp] theorem perform_setRow_resp (v : Byte) (s : State) : (perform (.setRow v) s).resp = s.resp := rfl
@[simp] theorem perform_setRow_trace (v : Byte) (s : State) : (perform (.setRow v) s).trace = s.trace := rfl

@[simp] theorem perform_respond_entryFlags (v : Word) (s : State) : (perform (.respond v) s).entryFlags = s.entryFlags := rfl
@[simp] theorem perform_respond_dctrlFlags (v : Word) (s : State) : (perform (.respond v) s).dctrlFlags = s.dctrlFlags := rfl
@[simp] theorem perform_respond_col (v : Word) (s : State) : (perform (.respond v) s).col = s.col := rfl
@[simp] theorem perform_respond_row (v : Word) (s : State) : (perform (.respond v) s).row = s.row := rfl
@[simp] theorem perform_respond_rs (v : Word) (s : State) : (perform (.respond v) s).rs = s.rs := rfl
@[simp] theorem perform_respond_e (v : Word) (s : State) : (perform (.respond v) s).e = s.e := rfl
@[simp] theorem perform_respond_d (v : Word) (s : State) : (perform (.respond v) s).d = s.d := rfl
@[simp] theorem perform_respond_rw (v : Word) (s : State) : (perform (.respond v) s).rw = s.rw := rfl
@[simp] theorem perform_respond_resp (v : Word) (s : State) : (perform (.respond v) s).resp = v := rfl
@[simp] theorem perform_respond_trace (v : Word) (s : State) : (perform (.respond v) s).trace = s.trace := rfl

@[simp] theorem accept_pending (as : List Act) (s : State) : (accept as s).pending = as := rfl

@[simp] theorem withFetchWord_pending (s : State) (nbits w : Nat) : (s.withFetchWord nbits w).pending = [] := rfl

@[simp] theorem withFetchWord_port (s : State) (nbits w : Nat) :
    (s.withFetchWord nbits w).port = tableWords nbits w ++ s.port := rfl

/-- `BUSY` is 0 exactly when the block is idle (R39). -/
theorem busy_eq_zero_iff (s : State) : s.busy = 0 ↔ s.Idle := by
  unfold State.busy State.Idle
  cases s.pending <;> simp

@[simp] theorem resetWith_hasRw (c : Config) : (State.resetWith c).hasRw = c.hasRw := by
  rcases c with ⟨_, rw, _, _⟩
  cases rw <;> rfl

@[simp] theorem resetWith_config (c : Config) : (State.resetWith c).config = c := by
  rcases c with ⟨_, rw, _, _⟩
  cases rw <;> rfl

end Sys2Proof.Machine
end

