-- ==== Sys2Proof/Laws/Ops.lean ====
section
/-! SUPPORT. What the shared operations do, one lemma each, for a proof to cite instead of unfolding them. -/

namespace Sys2Proof.Machine

/-! ### Sequences of statements -/

@[simp] theorem performAll_nil (s : State) : performAll [] s = s := rfl

@[simp] theorem performAll_cons (a : Act) (as : List Act) (s : State) :
    performAll (a :: as) s = performAll as (perform a s) := rfl

/-- Statements execute in the written order (R13). -/
theorem performAll_append (as bs : List Act) (s : State) :
    performAll (as ++ bs) s = performAll bs (performAll as s) := by
  induction as generalizing s with
  | nil => rfl
  | cons a as ih => exact ih (perform a s)

@[simp] theorem performAll_ptype (as : List Act) (s : State) : (performAll as s).ptype = s.ptype := by
  induction as generalizing s with
  | nil => rfl
  | cons a as ih => simp [ih]

@[simp] theorem performAll_timing (as : List Act) (s : State) : (performAll as s).timing = s.timing := by
  induction as generalizing s with
  | nil => rfl
  | cons a as ih => simp [ih]

@[simp] theorem performAll_initNibbles (as : List Act) (s : State) :
    (performAll as s).initNibbles = s.initNibbles := by
  induction as generalizing s with
  | nil => rfl
  | cons a as ih => simp [ih]

@[simp] theorem performAll_pending (as : List Act) (s : State) : (performAll as s).pending = s.pending := by
  induction as generalizing s with
  | nil => rfl
  | cons a as ih => simp [ih]

@[simp] theorem performAll_port (as : List Act) (s : State) : (performAll as s).port = s.port := by
  induction as generalizing s with
  | nil => rfl
  | cons a as ih => simp [ih]

/-- No statement adds or removes the read/write line (R8, R235). -/
@[simp] theorem perform_hasRw (a : Act) (s : State) : (perform a s).hasRw = s.hasRw := by
  cases a with
  | emit ev => cases ev <;> simp [State.hasRw]
  | _ => rfl

@[simp] theorem performAll_hasRw (as : List Act) (s : State) : (performAll as s).hasRw = s.hasRw := by
  induction as generalizing s with
  | nil => rfl
  | cons a as ih => simp [ih]

/-- What one statement appends to the trace. -/
theorem perform_trace (a : Act) (s : State) : (perform a s).trace = s.trace ++ eventsOf s.hasRw [a] := by
  cases a with
  | emit ev =>
    cases ev with
    | setRW v => cases h : s.rw <;> simp [eventsOf, State.hasRw, h]
    | _ => rfl
  | _ => simp [eventsOf]

theorem eventsOf_append (hasRw : Bool) (as bs : List Act) :
    eventsOf hasRw (as ++ bs) = eventsOf hasRw as ++ eventsOf hasRw bs := by
  induction as with
  | nil => rfl
  | cons a as ih =>
    cases a with
    | emit ev =>
      cases ev with
      | setRW v => cases hasRw <;> simp [eventsOf, ih]
      | _ => simp [eventsOf, ih]
    | _ => simp [eventsOf, ih]

/-- The trace of an operation is the events of its statements, in order (R14, R68). -/
theorem performAll_trace (as : List Act) (s : State) :
    (performAll as s).trace = s.trace ++ eventsOf s.hasRw as := by
  induction as generalizing s with
  | nil => simp [eventsOf]
  | cons a as ih =>
    rw [performAll_cons, ih, perform_trace, perform_hasRw, List.append_assoc, ← eventsOf_append]
    rfl

/-- One statement keeps the registers equal to the replay of the trace (R14). -/
theorem perform_pinState (a : Act) (s : State) :
    (perform a s).pinState = replay s.pinState (eventsOf s.hasRw [a]) := by
  cases a with
  | emit ev =>
    cases ev with
    | setRW v => cases h : s.rw <;> simp [eventsOf, State.hasRw, State.pinState, replay, pinsAfter, h]
    | _ => rfl
  | _ => rfl

/-! ### The byte-transfer engine -/

/-- `upperNibble` is the slice `v[7:4]` (R112). -/
theorem upperNibble_eq (v : Byte) : upperNibble v = v.extractLsb' 4 4 := by
  ext i hi
  simp [upperNibble, Nat.lt_add_right 4 hi]

/-- `lowerNibble` is the slice `v[3:0]` (R112). -/
theorem lowerNibble_eq (v : Byte) : lowerNibble v = v.extractLsb' 0 4 := by
  revert v
  decide

@[simp] theorem performAll_delay (t : Nat) (s : State) :
    performAll (delay t) s = { s with trace := s.trace ++ [.dly t] } := rfl

/-- PULSE (R110). -/
theorem performAll_pulse (t : Timing) (s : State) :
    performAll (pulse t) s =
      { s with
        e := 0
        trace := s.trace ++ [.setE 0, .dly t.tPulse, .setE 1, .dly t.tPulse, .setE 0, .dly t.tPulse] } := by
  simp [pulse, delay, emit]

/-- WRITENIB (R111). -/
theorem performAll_writeNib (t : Timing) (n : Nibble) (s : State) :
    performAll (writeNib t n) s = { s with d := n, e := 0, trace := s.trace ++ nibbleFrame t n } := by
  simp [writeNib, performAll_pulse, nibbleFrame, emit]

/-- WRITEBYTE (R112). -/
theorem performAll_writeByte (t : Timing) (v : Byte) (s : State) :
    performAll (writeByte t v) s =
      { s with d := v.extractLsb' 0 4, e := 0, trace := s.trace ++ byteFrame t v } := by
  simp [writeByte, performAll_append, performAll_writeNib, byteFrame, upperNibble_eq, lowerNibble_eq]

/-- WRITECMD (R116). -/
theorem performAll_writeCmd (t : Timing) (v : Byte) (s : State) :
    performAll (writeCmd t v) s =
      { s with rs := 0, d := v.extractLsb' 0 4, e := 0, trace := s.trace ++ cmdFrame t v } := by
  simp [writeCmd, performAll_writeByte, cmdFrame, emit]

/-- WRITEDATA (R117). -/
theorem performAll_writeData (t : Timing) (v : Byte) (s : State) :
    performAll (writeData t v) s =
      { s with rs := 1, d := v.extractLsb' 0 4, e := 0, trace := s.trace ++ dataFrame t v } := by
  simp [writeData, performAll_writeByte, dataFrame, emit]

/-! ### Running and interrupting an operation -/

/-- A whole operation always answers a next state (R16). -/
@[simp] theorem runOperation_eq (as : List Act) (s : State) : runOperation as s = .next (performAll as s) := rfl

/-- The sequencer's next statement (R21). -/
theorem tick_of_pending {s : State} {a : Act} {rest : List Act} (h : s.pending = a :: rest) :
    tick s = perform a { s with pending := rest } := by
  simp [tick, h]

/-- An idle sequencer does nothing. -/
theorem tick_of_idle {s : State} (h : s.Idle) : tick s = s := by
  simp [tick, show s.pending = [] from h]

@[simp] theorem resetEvent_config (s : State) : (resetEvent s).config = s.config := resetWith_config s.config

/-! ### Flags -/

/-- `ENTRY` reads what is stored, the unimplemented bits dropped (R22). -/
theorem perform_setEntry_entry (v : Byte) (s : State) : (perform (.setEntry v) s).entry = v &&& 0x03 := by
  simp only [State.entry, perform_setEntry_entryFlags]
  revert v
  decide

/-- `DCTRL` reads what is stored, the unimplemented bits dropped (R25). -/
theorem perform_setDctrl_dctrl (v : Byte) (s : State) : (perform (.setDctrl v) s).dctrl = v &&& 0x07 := by
  simp only [State.dctrl, perform_setDctrl_dctrlFlags]
  revert v
  decide

end Sys2Proof.Machine
end

