-- ==== Sys2Proof/Laws/Operations.lean ====
section
/-! SUPPORT. What the operations' shared parts do: address translation, the cursor's advance, the modes' common shape, the glyph's
data writes, INIT's nibble phase; and what one step can do. -/

namespace Sys2Proof.Machine

/-! ### Translation and the cursor -/

/-- Everything the translation can answer (R57 to R59). -/
theorem getAddress_cases (p : PanelType) (c r : Byte) :
    (rows p ≤ r.toNat ∧ getAddress p c r = 0xFF) ∨
    (r.toNat < rows p ∧ getAddress p c r = BitVec.ofNat 8 (0x80 + base p r.toNat + c.toNat)) := by
  unfold getAddress
  split
  · exact .inl ⟨by assumption, rfl⟩
  · exact .inr ⟨by omega, rfl⟩

/-- Every panel has one to four rows and eight to forty columns (R54). -/
theorem geometry_bounds (p : PanelType) : 1 ≤ rows p ∧ rows p ≤ 4 ∧ 8 ≤ columns p ∧ columns p ≤ 40 := by
  cases p <;> decide

/-- No row base is above 0x54 (R54). -/
theorem base_le (p : PanelType) (r : Nat) (h : r < rows p) : base p r ≤ 0x54 := by
  have hr := (geometry_bounds p).2.1
  have : r < 4 := by omega
  revert h
  interval_cases r <;> cases p <;> decide

/-- The row after a row is on the panel (R155). -/
theorem nextRow_lt (p : PanelType) (r : Byte) : (nextRow p r).toNat < rows p := by
  have h := geometry_bounds p
  unfold nextRow
  split
  · exact h.1
  · rw [BitVec.toNat_add_of_lt] <;> simp <;> omega

/-- The eight-bit row of R153's `ROW + 1`. -/
theorem nextRow_eq (p : PanelType) (r : Byte) :
    nextRow p r = if rows p ≤ r.toNat + 1 then 0 else BitVec.ofNat 8 (r.toNat + 1) := by
  unfold nextRow
  split
  · rfl
  · apply BitVec.eq_of_toNat_eq
    simp

/-- A newline, or the wrap after the last column (R153). -/
theorem performAll_newRow (s u : State) :
    performAll (newRow s) u = { u with col := 0, row := nextRow s.ptype s.row } := rfl

/-- The column advance of PUTC (R154). -/
theorem performAll_advanceColumn (s u : State) :
    performAll (advanceColumn s) u =
      if columns s.ptype ≤ s.col.toNat + 1 then { u with col := 0, row := nextRow s.ptype s.row }
      else { u with col := s.col + 1 } := by
  unfold advanceColumn
  split <;> rfl

/-- The positioned write of PUTCAT and PUTC (R151). -/
theorem performAll_positionedWrite (s u : State) (col row glyph : Byte) :
    performAll (positionedWrite s col row glyph) u =
      { u with
        rs := 1, e := 0, d := glyph.extractLsb' 0 4
        trace :=
          u.trace ++ (cmdFrame s.timing (getAddress s.ptype col row) ++ dataFrame s.timing glyph) } := by
  simp [positionedWrite, performAll_append, performAll_writeCmd, performAll_writeData]

/-- PUTC of a newline (R155). -/
theorem planPutc_newline {ch : Byte} (h : ch = 0x0A) (s : State) : planPutc ch s = newRow s ++ [.respond 0] :=
  congrArg (· ++ [Act.respond 0]) (if_pos h)

/-- PUTC of any other byte (R153). -/
theorem planPutc_character {ch : Byte} (h : ch ≠ 0x0A) (s : State) :
    planPutc ch s = positionedWrite s s.col s.row ch ++ advanceColumn s ++ [.respond 0] :=
  congrArg (· ++ [Act.respond 0]) (if_neg h)

/-! ### Modes, glyphs, INIT -/

/-- The common shape of the display-control modes (R170), for flags within the implemented bits. -/
theorem performAll_displayMode (flags : Byte) (s : State) (h : flags &&& 0x07 = flags) :
    DisplayModeResult flags s (performAll (displayMode flags s) s) := by
  constructor
  · simp only [displayMode, List.singleton_append, performAll_cons, performAll_append,
      performAll_writeCmd, performAll_nil]
    exact (perform_setDctrl_dctrl flags s).trans h
  · simp [displayMode, performAll_append, performAll_writeCmd, perform, cmdDisplayControl]

/-- The common shape of the entry-mode modes (R170), for flags within the implemented bits. -/
theorem performAll_entryMode (flags : Byte) (s : State) (h : flags &&& 0x03 = flags) :
    EntryModeResult flags s (performAll (entryMode flags s) s) := by
  constructor
  · simp only [entryMode, List.singleton_append, performAll_cons, performAll_append,
      performAll_writeCmd, performAll_nil]
    exact (perform_setEntry_entry flags s).trans h
  · simp [entryMode, performAll_append, performAll_writeCmd, perform, cmdEntryMode]

/-- The common shape of the scroll modes (R177). -/
theorem performAll_scrollMode (cmd : Byte) (s : State) :
    performAll (scrollMode cmd s) s =
      { s with rs := 0, e := 0, d := cmd.extractLsb' 0 4, resp := 0, trace := s.trace ++ cmdFrame s.timing cmd } := by
  simp [scrollMode, performAll_append, performAll_writeCmd, perform]

/-- The glyph's data writes (R190): the last byte stays on the data lines. -/
theorem performAll_writeBitmap (t : Timing) (b : Byte) (bitmap : List Byte) (s : State) :
    performAll (writeBitmap t (b :: bitmap)) s =
      { s with
        rs := 1, e := 0, d := ((b :: bitmap).getLastD 0).extractLsb' 0 4
        trace := s.trace ++ bitmapFrames t (b :: bitmap) } := by
  induction bitmap generalizing b s with
  | nil => simp [writeBitmap, performAll_writeData, bitmapFrames]
  | cons c rest ih =>
    rw [writeBitmap, performAll_append, ih, performAll_writeData]
    simp [bitmapFrames]

/-- INIT's single nibbles (R130). -/
theorem performAll_initNibblePhase (t : Timing) (n : InitNibbles) (s : State) :
    performAll (initNibblePhase t n) s =
      { s with
        e := 0, d := n.fourth.getD n.third
        trace := s.trace ++
          (loneNibbleFrame t t.tInitGap n.first ++ loneNibbleFrame t t.tInitGap n.second ++
            loneNibbleFrame t t.tInitGap n.third ++
            n.fourth.elim [] fun x => loneNibbleFrame t t.tSettle x) } := by
  rcases n with ⟨a, b, c, _ | x⟩ <;>
    simp [initNibblePhase, performAll_append, performAll_writeNib, loneNibbleFrame]

/-- Function-set is the two-line byte for every panel (R96). -/
theorem cmdFunctionSet_eq (p : PanelType) : cmdFunctionSet p = 0x28 := by
  cases p <;> decide

/-- A set CGRAM address is the slot times eight above 0x40 (R97). -/
theorem cmdCgramAddress_eq (slot : Byte) (h : slot.toNat ≤ 7) :
    cmdCgramAddress (slot &&& 0x7) = BitVec.ofNat 8 (0x40 + 8 * slot.toNat) := by
  revert slot
  decide

/-- The unimplemented bits of `ENTRY` and `DCTRL` read 0 (R22, R25), so a mode's new flags stay within the implemented ones. -/
theorem flags_implemented (s : State) :
    setFlag bitID s.entry &&& 0x03 = setFlag bitID s.entry ∧
    clearFlag bitID s.entry &&& 0x03 = clearFlag bitID s.entry ∧
    setFlag bitS s.entry &&& 0x03 = setFlag bitS s.entry ∧
    clearFlag bitS s.entry &&& 0x03 = clearFlag bitS s.entry ∧
    setFlag bitD s.dctrl &&& 0x07 = setFlag bitD s.dctrl ∧
    clearFlag bitD s.dctrl &&& 0x07 = clearFlag bitD s.dctrl ∧
    setFlag bitC s.dctrl &&& 0x07 = setFlag bitC s.dctrl ∧
    clearFlag bitC s.dctrl &&& 0x07 = clearFlag bitC s.dctrl ∧
    setFlag bitB s.dctrl &&& 0x07 = setFlag bitB s.dctrl ∧
    clearFlag bitB s.dctrl &&& 0x07 = clearFlag bitB s.dctrl := by
  unfold State.entry State.dctrl
  generalize s.entryFlags = x
  generalize s.dctrlFlags = y
  revert x y
  decide

/-! ### One step -/

/-- `exec` runs the operation's pseudocode (R16, R21). -/
theorem exec_eq_plan (i : Instr) (s : State) : exec i s = .next (performAll (plan i s) s) := by
  cases i <;> rfl

/-- A statement does not read the sequencer's position. -/
theorem perform_with_pending (a : Act) (s : State) (p : List Act) :
    perform a { s with pending := p } = { perform a s with pending := p } := by
  cases a with
  | emit ev => cases ev <;> rfl
  | _ => rfl

/-- Everything a step that answers a next state can be. -/
theorem step_cases {s t : State} (h : step s = .next t) :
    (∃ a rest, s.pending = a :: rest ∧ t = { perform a s with pending := rest }) ∨
    (∃ i rest, s.Idle ∧ decode s.port = .operation i rest ∧
      t = performAll (plan i { s with port := rest }) { s with port := rest }) ∨
    (s.Idle ∧ decode s.port = .incomplete ∧ t = s) := by
  unfold step at h
  split at h
  · rename_i a rest hp
    cases h
    exact .inl ⟨a, rest, hp, (tick_of_pending hp).trans (perform_with_pending a s rest)⟩
  · rename_i hp
    split at h
    · rename_i i rest hd
      rw [exec_eq_plan] at h
      cases h
      exact .inr (.inl ⟨i, rest, hp, hd, rfl⟩)
    · cases h
    · rename_i hd
      cases h
      exact .inr (.inr ⟨hp, hd, rfl⟩)

end Sys2Proof.Machine
end

