-- ==== Sys2Proof/Laws/PerInstr.lean ====
section
/-! SUPPORT. One lemma per instruction of the family Length: the encoder writes as many words as the decoder, which tells a
length from the first word alone, will take (R83). -/

/-- The words of `i` are as many as its first word announces. -/
def Sys2Proof.Laws.Length.Statement (i : Sys2Proof.Instr) : Prop :=
  (Sys2Proof.encode i).length = Sys2Proof.wordCount ((Sys2Proof.encode i).headD 0)

namespace Sys2Proof.Laws

theorem Length.init : Length.Statement .init := by
  simp [Length.Statement, encode, wordCount]

theorem Length.clear : Length.Statement .clear := by
  simp [Length.Statement, encode, wordCount]

theorem Length.home : Length.Statement .home := by
  simp [Length.Statement, encode, wordCount]

theorem Length.locate (col : Byte) (row : Byte) : Length.Statement (.locate col row) := by
  simp [Length.Statement, encode, wordCount]

theorem Length.putcat (col : Byte) (row : Byte) (glyph : Byte) : Length.Statement (.putcat col row glyph) := by
  simp [Length.Statement, encode, wordCount]

theorem Length.putc (ch : Byte) : Length.Statement (.putc ch) := by
  simp [Length.Statement, encode, wordCount]

theorem Length.defglyph (slot : Byte) (bitmap : List Byte) : Length.Statement (.defglyph slot bitmap) := by
  simp [Length.Statement, encode, wordCount]

theorem Length.getc : Length.Statement .getc := by
  simp [Length.Statement, encode, wordCount]

theorem Length.setmodeDisplayOn : Length.Statement .setmodeDisplayOn := by
  simp [Length.Statement, encode, wordCount]

theorem Length.setmodeDisplayOff : Length.Statement .setmodeDisplayOff := by
  simp [Length.Statement, encode, wordCount]

theorem Length.setmodeCursorOn : Length.Statement .setmodeCursorOn := by
  simp [Length.Statement, encode, wordCount]

theorem Length.setmodeCursorOff : Length.Statement .setmodeCursorOff := by
  simp [Length.Statement, encode, wordCount]

theorem Length.setmodeBlinkOn : Length.Statement .setmodeBlinkOn := by
  simp [Length.Statement, encode, wordCount]

theorem Length.setmodeBlinkOff : Length.Statement .setmodeBlinkOff := by
  simp [Length.Statement, encode, wordCount]

theorem Length.setmodeScrollLeft : Length.Statement .setmodeScrollLeft := by
  simp [Length.Statement, encode, wordCount]

theorem Length.setmodeScrollRight : Length.Statement .setmodeScrollRight := by
  simp [Length.Statement, encode, wordCount]

theorem Length.setmodeLeftToRight : Length.Statement .setmodeLeftToRight := by
  simp [Length.Statement, encode, wordCount]

theorem Length.setmodeRightToLeft : Length.Statement .setmodeRightToLeft := by
  simp [Length.Statement, encode, wordCount]

theorem Length.setmodeAutoscrollOn : Length.Statement .setmodeAutoscrollOn := by
  simp [Length.Statement, encode, wordCount]

theorem Length.setmodeAutoscrollOff : Length.Statement .setmodeAutoscrollOff := by
  simp [Length.Statement, encode, wordCount]

theorem Length.rows : Length.Statement .rows := by
  simp [Length.Statement, encode, wordCount]

theorem Length.cols : Length.Statement .cols := by
  simp [Length.Statement, encode, wordCount]

theorem Length.addr (col : Byte) (row : Byte) : Length.Statement (.addr col row) := by
  simp [Length.Statement, encode, wordCount]

theorem Length.rdsr (reg : Byte) : Length.Statement (.rdsr reg) := by
  simp [Length.Statement, encode, wordCount]

end Sys2Proof.Laws
end

