-- ==== Sys2Proof/Laws/Views.lean ====
section
/-! SUPPORT. The observation's views (R14) over concatenated traces and over the bus frames. -/

namespace Sys2Proof.Machine

theorem replay_append (p : PinState) (xs ys : List Event) : replay p (xs ++ ys) = replay (replay p xs) ys :=
  List.foldl_append

/-- After any statements the pin registers are the replay of the events they appended (R14). -/
theorem performAll_pinState (as : List Act) (s : State) :
    (performAll as s).pinState = replay s.pinState (eventsOf s.hasRw as) := by
  induction as generalizing s with
  | nil => rfl
  | cons a as ih =>
    rw [performAll_cons, ih, perform_pinState, perform_hasRw, ← replay_append, ← eventsOf_append]
    rfl

theorem duration_append (xs ys : List Event) : duration (xs ++ ys) = duration xs + duration ys := by
  simp [duration]

/-- A nibble frame lasts three pulse levels (R111). -/
theorem duration_nibbleFrame (t : Timing) (n : Nibble) : duration (nibbleFrame t n) = 3 * t.tPulse := by
  simp [duration, nibbleFrame, eventDelay]
  omega

theorem length_nibbleFrame (t : Timing) (n : Nibble) : (nibbleFrame t n).length = 7 := rfl

theorem length_byteFrame (t : Timing) (v : Byte) : (byteFrame t v).length = 15 := rfl

/-- The two nibbles of a byte, put together again (R113). -/
theorem nibbles_append (v : Byte) : v.extractLsb' 4 4 ++ v.extractLsb' 0 4 = v := by
  revert v
  decide

/-- A command frame adds one `C:xx` to the byte sequence, whatever follows it. -/
theorem byteSequence_cmdFrame (p : PinState) (gap : Bool) (t : Timing) (v : Byte) (rest : List Event) (he : p.e = 0) :
    byteSequence p none gap (cmdFrame t v ++ rest) =
      .cmd v :: byteSequence { p with rs := 0, e := 0, d := v.extractLsb' 0 4 } none true rest := by
  simp [cmdFrame, byteFrame, nibbleFrame, byteSequence, fallingEdge, pinsAfter, he, pairNibbles, loneNibble,
    nibbles_append]

/-- A data frame adds one `D:xx` to the byte sequence, whatever follows it. -/
theorem byteSequence_dataFrame (p : PinState) (gap : Bool) (t : Timing) (v : Byte) (rest : List Event) (he : p.e = 0) :
    byteSequence p none gap (dataFrame t v ++ rest) =
      .data v :: byteSequence { p with rs := 1, e := 0, d := v.extractLsb' 0 4 } none true rest := by
  simp [dataFrame, byteFrame, nibbleFrame, byteSequence, fallingEdge, pinsAfter, he, pairNibbles, loneNibble,
    nibbles_append]

/-- A nibble frame and a delay after it add one `N:x` (R130). -/
theorem byteSequence_nibbleFrame (p : PinState) (gap : Bool) (t : Timing) (n : Nibble) (w : Nat) (rest : List Event)
    (he : p.e = 0) :
    byteSequence p none gap (nibbleFrame t n ++ .dly w :: rest) =
      .nib n :: byteSequence { p with e := 0, d := n } none true rest := by
  simp [nibbleFrame, byteSequence, fallingEdge, pinsAfter, he, loneNibble]

end Sys2Proof.Machine
end

