-- ==== Sys2Proof/Tests/Slice0.lean ====
section
/-! SUPPORT. Tests of the model on fixed values, every expected result taken from spec/95_test_vectors.md (named in each comment)
or written out from the rules, and a witness for every statement that has hypotheses. -/

namespace Sys2Proof.Tests

open Sys2Proof Sys2Proof.Machine

/-- The reset state of a block with panel `p` and, if `hasRw`, the read/write line. -/
def fresh (p : PanelType) (hasRw : Bool) : State := State.resetWith { Config.default with strap := p, hasRw := hasRw }

/-- `fresh` with the tracked cursor at a place. -/
def cursorAt (p : PanelType) (col row : Byte) : State := { fresh p false with col := col, row := row }

/-- `fresh` with flag registers. -/
def flagged (entry : BitVec 2) (dctrl : BitVec 3) : State :=
  { fresh .lcd16x2 false with entryFlags := entry, dctrlFlags := dctrl }

/-- The state an operation leaves; a state of its own if there were none. -/
def after (i : Instr) (s : State) : State :=
  match exec i s with
  | .next t => t
  | .fault _ => { s with resp := 0xDEAD }
  | .refused _ => { s with resp := 0xDEAD }

/-- The byte sequence of a run from reset. -/
def bytes (s : State) : List ByteItem := byteSequence (resetPins s.hasRw) none false s.trace

/-- The tracked position. -/
def position (s : State) : Byte × Byte := (s.col, s.row)

/-! ### Well-formed instructions -/

theorem test_short_bitmap_is_ill_formed : (Instr.defglyph 0 [0, 1, 2, 3, 4, 5, 6]).wellFormed = false := by decide

theorem test_long_bitmap_is_ill_formed : (Instr.defglyph 0 [0, 1, 2, 3, 4, 5, 6, 7, 8]).wellFormed = false := by decide

theorem test_glyph_is_well_formed : (Instr.defglyph 255 [0, 1, 2, 3, 4, 5, 6, 7]).wellFormed = true := by decide

/-! ### Decoding, every constructor by a word written out from R85 (unused fields not zero where there are any, R87) -/

theorem test_decode_init : decode [0x00ABCDEF#32] = .operation .init [] := by decide
theorem test_decode_clear : decode [0x01FFFFFF#32, 7#32] = .operation .clear [7#32] := by decide
theorem test_decode_home : decode [0x02000001#32] = .operation .home [] := by decide
theorem test_decode_locate : decode [0x031301FF#32] = .operation (.locate 19 1) [] := by decide
theorem test_decode_putcat : decode [0x0405020A#32] = .operation (.putcat 5 2 0x0A) [] := by decide
theorem test_decode_putc : decode [0x05FFFF5A#32] = .operation (.putc 0x5A) [] := by decide
theorem test_decode_defglyph : decode [0x0601AAAA#32, 0x0E1B1111#32, 0x11111F00#32, 9#32] =
    .operation (.defglyph 1 [0x0E, 0x1B, 0x11, 0x11, 0x11, 0x11, 0x1F, 0x00]) [9#32] := by decide
theorem test_decode_getc : decode [0x07000000#32] = .operation .getc [] := by decide
theorem test_decode_display_on : decode [0x10000000#32] = .operation .setmodeDisplayOn [] := by decide
theorem test_decode_display_off : decode [0x10010000#32] = .operation .setmodeDisplayOff [] := by decide
theorem test_decode_cursor_on : decode [0x10020000#32] = .operation .setmodeCursorOn [] := by decide
theorem test_decode_cursor_off : decode [0x10030000#32] = .operation .setmodeCursorOff [] := by decide
theorem test_decode_blink_on : decode [0x1004FFFF#32] = .operation .setmodeBlinkOn [] := by decide
theorem test_decode_blink_off : decode [0x10050000#32] = .operation .setmodeBlinkOff [] := by decide
theorem test_decode_scroll_left : decode [0x10060000#32] = .operation .setmodeScrollLeft [] := by decide
theorem test_decode_scroll_right : decode [0x10070000#32] = .operation .setmodeScrollRight [] := by decide
theorem test_decode_left_to_right : decode [0x10080000#32] = .operation .setmodeLeftToRight [] := by decide
theorem test_decode_right_to_left : decode [0x10090000#32] = .operation .setmodeRightToLeft [] := by decide
theorem test_decode_autoscroll_on : decode [0x100A0000#32] = .operation .setmodeAutoscrollOn [] := by decide
theorem test_decode_autoscroll_off : decode [0x100B0000#32] = .operation .setmodeAutoscrollOff [] := by decide
theorem test_decode_rows : decode [0x20000000#32] = .operation .rows [] := by decide
theorem test_decode_cols : decode [0x21000000#32] = .operation .cols [] := by decide
theorem test_decode_addr : decode [0x22050200#32] = .operation (.addr 5 2) [] := by decide
theorem test_decode_rdsr : decode [0x2301FFFF#32] = .operation (.rdsr 1) [] := by decide

/-- X1 and X2: reserved words are not operations. -/
theorem test_decode_reserved :
    decode [0x08000000#32] = .reserved 0x08000000#32 ∧ decode [0x0F123456#32] = .reserved 0x0F123456#32 ∧
    decode [0x11000000#32] = .reserved 0x11000000#32 ∧ decode [0x1F000000#32] = .reserved 0x1F000000#32 ∧
    decode [0x24000000#32] = .reserved 0x24000000#32 ∧ decode [0xFF000000#32] = .reserved 0xFF000000#32 ∧
    decode [0x100C0000#32] = .reserved 0x100C0000#32 ∧ decode [0x10FF0000#32] = .reserved 0x10FF0000#32 := by decide

/-- Table-numbered bits: a later word's bits count on from the first word's. -/
theorem test_table_word_defglyph :
    decodeTableWord 96 (0x06010000 + 0x0E1B1111 * 2 ^ 32 + 0x11111F00 * 2 ^ 64) =
      some (.defglyph 1 [0x0E, 0x1B, 0x11, 0x11, 0x11, 0x11, 0x1F, 0x00]) := by decide

theorem test_table_word_short :
    decodeTableWord 32 0x06020000 = some (.defglyph 2 [0, 0, 0, 0, 0, 0, 0, 0]) ∧
    decodeTableWord 32 0x0500005A = some (.putc 0x5A) ∧ decodeTableWord 32 0x08000000 = none := by decide

/-! ### Words the host presents -/

theorem test_step_runs_presented_word :
    step (State.reset.withFetchWord 32 0x03130100) = .next (cursorAt .lcd16x2 19 1) := by rfl

/-- G3: all three words are consumed, the word after them stays. -/
theorem test_step_consumes_rejected_glyph :
    step { State.reset with port := [0x06080000#32, 1#32, 2#32, 0x07000000#32] } =
      .next { State.reset with port := [0x07000000#32] } := by rfl

theorem test_step_refuses_reserved_word :
    step (State.reset.withFetchWord 32 0x100C0000) = .refused (.reservedWord 0x100C0000#32) := by rfl

/-! ### The transfer engine (T1, T5) -/

/-- T1: the full pin trace of WRITECMD(0x28), with `RS` = 1 and `D` = 0x9 before. -/
theorem test_write_cmd_trace :
    (performAll (writeCmd .default 0x28) { State.reset with rs := 1, d := 9 }).trace =
      [.setRS 0,
       .setD 0x2, .setE 0, .dly 1, .setE 1, .dly 1, .setE 0, .dly 1,
       .setD 0x8, .setE 0, .dly 1, .setE 1, .dly 1, .setE 0, .dly 1,
       .dly 40] := by decide

/-- T1: the pin-state sequence drops the first `SET(E,0)` of each nibble and sums the delays around it. -/
theorem test_write_cmd_pin_states :
    pinStateSequence { rs := 1, rw := none, e := 0, d := 9 } 0 (cmdFrame .default 0x28) =
      [.pins { rs := 0, rw := none, e := 0, d := 9 }, .pins { rs := 0, rw := none, e := 0, d := 2 }, .wait 1,
       .pins { rs := 0, rw := none, e := 1, d := 2 }, .wait 1, .pins { rs := 0, rw := none, e := 0, d := 2 }, .wait 1,
       .pins { rs := 0, rw := none, e := 0, d := 8 }, .wait 1, .pins { rs := 0, rw := none, e := 1, d := 8 }, .wait 1,
       .pins { rs := 0, rw := none, e := 0, d := 8 }, .wait 41] := by decide

/-! ### INIT, CLEAR, HOME -/

/-- I1, I2: INIT from ENTRY 0x01, DCTRL 0x07, (9, 1). -/
theorem test_init_state :
    let t := after .init { flagged 0b01 0b111 with col := 9, row := 1 }
    bytes t = [.nib 3, .nib 3, .nib 3, .nib 2, .cmd 0x28, .cmd 0x08, .cmd 0x01, .cmd 0x06] ∧
    t.entry = 0x02 ∧ t.dctrl = 0x00 ∧ position t = (0, 0) ∧ t.pins = 0x06 ∧ t.trace.length = 99 ∧
    duration t.trace = 23236 := by decide +kernel

/-- P1: the delays between latches, and the `RW` write where there is the line. -/
theorem test_init_latches :
    (latchedNibbles (resetPins true) 0 (after .init (fresh .lcd20x4 true)).trace).map (fun l => (l.d, l.wait)) =
      [(3, 15002), (3, 2003), (3, 2003), (2, 2003), (2, 43), (8, 3), (0, 43), (8, 3), (0, 43), (1, 3), (0, 2043), (6, 3)] ∧
    (after .init (fresh .lcd20x4 true)).trace.head? = some (.setRW 0) ∧
    (after .init (fresh .lcd20x4 true)).trace.length = 100 := by decide +kernel

/-- I4. -/
theorem test_clear :
    let t := after .clear { flagged 0b10 0b100 with col := 5, row := 1 }
    bytes t = [.cmd 0x01] ∧ position t = (0, 0) ∧ t.dctrl = 0x04 ∧ t.pins = 0x01 ∧ duration t.trace = 2046 := by decide

/-- I6. -/
theorem test_home :
    let t := after .home (cursorAt .lcd16x2 7 1)
    bytes t = [.cmd 0x02] ∧ position t = (0, 0) ∧ t.pins = 0x02 ∧ t.trace.length = 17 := by decide

/-! ### LOCATE, PUTCAT, PUTC, GETC -/

/-- W1: any value is stored. -/
theorem test_locate :
    position (after (.locate 255 255) (fresh .lcd16x2 false)) = (255, 255) ∧
    (after (.locate 255 255) (fresh .lcd16x2 false)).trace = [] := by decide

/-- W3 and W12: 0x0A is plain data for PUTCAT; a bad row sends the sentinel. -/
theorem test_putcat :
    bytes (after (.putcat 5 2 0x0A) (fresh .lcd20x4 false)) = [.cmd 0x99, .data 0x0A] ∧
    bytes (after (.putcat 0 2 0x58) (fresh .lcd16x2 false)) = [.cmd 0xFF, .data 0x58] := by decide

/-- W2. -/
theorem test_putcat_pins :
    (after (.putcat 0 0 0x48) (cursorAt .lcd8x2 3 1)).pins = 0x28 ∧
    position (after (.putcat 0 0 0x48) (cursorAt .lcd8x2 3 1)) = (3, 1) := by decide

/-- W4: newline moves the position and sends nothing. -/
theorem test_putc_newline :
    position (after (.putc 0x0A) (cursorAt .lcd16x2 7 0)) = (0, 1) ∧
    position (after (.putc 0x0A) (cursorAt .lcd16x2 0 1)) = (0, 0) ∧
    position (after (.putc 0x0A) (cursorAt .lcd20x4 3 3)) = (0, 0) ∧
    (after (.putc 0x0A) (cursorAt .lcd16x2 0 1)).trace = [] := by decide

/-- W5, W6, W9, W10, W11: wraps on and off the panel. -/
theorem test_putc_wraps :
    bytes (after (.putc 0x5A) (cursorAt .lcd16x2 15 1)) = [.cmd 0xCF, .data 0x5A] ∧
    position (after (.putc 0x5A) (cursorAt .lcd16x2 15 1)) = (0, 0) ∧
    position (after (.putc 0x41) (cursorAt .lcd20x4 19 1)) = (0, 2) ∧
    bytes (after (.putc 0x41) (cursorAt .lcd16x2 3 5)) = [.cmd 0xFF, .data 0x41] ∧
    position (after (.putc 0x41) (cursorAt .lcd16x2 3 5)) = (4, 5) ∧
    bytes (after (.putc 0x41) (cursorAt .lcd16x2 200 1)) = [.cmd 0x88, .data 0x41] ∧
    position (after (.putc 0x41) (cursorAt .lcd16x2 255 255)) = (0, 0) := by decide

/-- W14. -/
theorem test_getc : (after .getc (fresh .lcd16x2 false)).resp = 0xFFFFFFFF#32 := by decide

/-! ### SETMODE: M1 (from reset) and M2 (every flag set) -/

theorem test_display_on :
    bytes (after .setmodeDisplayOn (flagged 2 0)) = [.cmd 0x0C] ∧ (after .setmodeDisplayOn (flagged 2 0)).dctrl = 0x04 ∧
    bytes (after .setmodeDisplayOn (flagged 3 7)) = [.cmd 0x0F] := by decide
theorem test_display_off :
    bytes (after .setmodeDisplayOff (flagged 2 0)) = [.cmd 0x08] ∧
    bytes (after .setmodeDisplayOff (flagged 3 7)) = [.cmd 0x0B] ∧ (after .setmodeDisplayOff (flagged 3 7)).dctrl = 3 := by
  decide
theorem test_cursor_on :
    bytes (after .setmodeCursorOn (flagged 2 0)) = [.cmd 0x0A] ∧ (after .setmodeCursorOn (flagged 2 0)).dctrl = 2 := by
  decide
theorem test_cursor_off :
    bytes (after .setmodeCursorOff (flagged 2 0)) = [.cmd 0x08] ∧
    bytes (after .setmodeCursorOff (flagged 3 7)) = [.cmd 0x0D] ∧ (after .setmodeCursorOff (flagged 3 7)).dctrl = 5 := by
  decide
theorem test_blink_on :
    bytes (after .setmodeBlinkOn (flagged 2 0)) = [.cmd 0x09] ∧ (after .setmodeBlinkOn (flagged 2 0)).dctrl = 1 := by decide
theorem test_blink_off :
    bytes (after .setmodeBlinkOff (flagged 3 7)) = [.cmd 0x0E] ∧ (after .setmodeBlinkOff (flagged 3 7)).dctrl = 6 := by
  decide
theorem test_scroll_left :
    bytes (after .setmodeScrollLeft (flagged 3 7)) = [.cmd 0x18] ∧ (after .setmodeScrollLeft (flagged 3 7)).dctrl = 7 := by
  decide
theorem test_scroll_right :
    bytes (after .setmodeScrollRight (flagged 3 7)) = [.cmd 0x1C] ∧ (after .setmodeScrollRight (flagged 3 7)).entry = 3 := by
  decide
theorem test_left_to_right :
    bytes (after .setmodeLeftToRight (flagged 0 0)) = [.cmd 0x06] ∧ (after .setmodeLeftToRight (flagged 0 0)).entry = 2 := by
  decide
theorem test_right_to_left :
    bytes (after .setmodeRightToLeft (flagged 3 7)) = [.cmd 0x05] ∧ (after .setmodeRightToLeft (flagged 3 7)).entry = 1 := by
  decide
theorem test_autoscroll_on :
    bytes (after .setmodeAutoscrollOn (flagged 2 0)) = [.cmd 0x07] ∧ (after .setmodeAutoscrollOn (flagged 2 0)).entry = 3 := by
  decide
theorem test_autoscroll_off :
    bytes (after .setmodeAutoscrollOff (flagged 3 7)) = [.cmd 0x06] ∧
    (after .setmodeAutoscrollOff (flagged 3 7)).entry = 2 := by decide

/-! ### DEFGLYPH -/

/-- G1. -/
theorem test_defglyph :
    let t := after (.defglyph 0 [0, 1, 2, 3, 4, 5, 6, 7]) (fresh .lcd16x2 false)
    bytes t = [.cmd 0x40, .data 0, .data 1, .data 2, .data 3, .data 4, .data 5, .data 6, .data 7] ∧
    t.pins = 0x27 ∧ t.trace.length = 144 ∧ duration t.trace = 414 := by decide +kernel

/-- G2, G3, G4: the highest slot is taken, slot 8 and slot 255 are not. -/
theorem test_defglyph_slots :
    (bytes (after (.defglyph 7 [255, 255, 255, 255, 255, 255, 255, 255]) (fresh .lcd16x2 false))).head? =
      some (.cmd 0x78) ∧
    (after (.defglyph 8 [1, 2, 3, 4, 5, 6, 7, 8]) (fresh .lcd16x2 false)) = fresh .lcd16x2 false ∧
    (after (.defglyph 255 [1, 2, 3, 4, 5, 6, 7, 8]) (fresh .lcd16x2 false)).trace = [] := by decide +kernel

/-! ### Queries -/

/-- Q1. -/
theorem test_rows_cols :
    (after .rows (fresh .lcd20x4 false)).resp = 4#32 ∧ (after .rows (fresh .lcd8x2 false)).resp = 2#32 ∧
    (after .cols (fresh .lcd40x2 false)).resp = 0x28#32 ∧ (after .cols (fresh .lcd8x2 false)).resp = 8#32 := by decide

/-- A1, A2, A6, A8. -/
theorem test_addr :
    (after (.addr 0 2) (fresh .lcd20x4 false)).resp = 0x94#32 ∧ (after (.addr 19 3) (fresh .lcd20x4 false)).resp = 0xE7#32 ∧
    (after (.addr 0 2) (fresh .lcd16x2 false)).resp = 0xFF#32 ∧ (after (.addr 63 1) (fresh .lcd16x2 false)).resp = 0xFF#32 ∧
    (after (.addr 200 1) (fresh .lcd16x2 false)).resp = 0x88#32 ∧
    (after (.addr 255 3) (fresh .lcd20x4 false)).resp = 0xD3#32 := by decide

/-- Q2, Q4 and the layout of `PINS` (R31). -/
theorem test_rdsr :
    (after (.rdsr 0) (fresh .lcd16x2 false)).resp = 2#32 ∧ (after (.rdsr 4) (fresh .lcd20x4 false)).resp = 2#32 ∧
    (after (.rdsr 6) (flagged 3 7)).resp = 0#32 ∧ (after (.rdsr 255) (flagged 3 7)).resp = 0#32 ∧
    (after (.rdsr 5) { fresh .lcd16x2 true with rw := some 1, rs := 0, e := 1, d := 0xA }).resp = 0x5A#32 := by decide

/-- R30: the strap codes, and the three that are not valid (U6). -/
theorem test_strap_codes :
    panelOfStrap 0 = some .lcd16x2 ∧ panelOfStrap 2 = some .lcd20x4 ∧ panelOfStrap 4 = some .lcd8x2 ∧
    panelOfStrap 5 = none ∧ panelOfStrap 6 = none ∧ panelOfStrap 7 = none ∧
    ∀ c : BitVec 3, ∀ p, panelOfStrap c = some p → strapCode p = c := by decide

/-! ### Witnesses: for every statement with hypotheses, inputs that meet them -/

theorem witness_DecodeOfEncode : (Instr.defglyph 8 [1, 2, 3, 4, 5, 6, 7, 8]).wellFormed = true := by decide

theorem witness_DecodeTakesWholeOperation :
    decode [0x06000000#32, 1#32, 2#32, 3#32] = .operation (.defglyph 0 [0, 0, 0, 1, 0, 0, 0, 2]) [3#32] ∧
    decode [0x20000000#32, 3#32] = .operation .rows [3#32] := by decide

/-- One word for each clause of the table; where a SETMODE clause also asks for a mode number, that too. -/
theorem witness_EncodingTable :
    (∀ op ∈ [0x00, 0x01, 0x02, 0x03, 0x04, 0x05, 0x06, 0x07, 0x20, 0x21, 0x22, 0x23],
      ((BitVec.ofNat 32 (op * 2 ^ 24)).extractLsb' 24 8).toNat = op) ∧
    ∀ a ∈ [0, 1, 2, 3, 4, 5, 6, 7, 8, 9, 10, 11],
      ((BitVec.ofNat 32 (0x10 * 2 ^ 24 + a * 2 ^ 16)).extractLsb' 24 8).toNat = 0x10 ∧
      ((BitVec.ofNat 32 (0x10 * 2 ^ 24 + a * 2 ^ 16)).extractLsb' 16 8).toNat = a := by decide

/-- Both ends of every reserved range. -/
theorem witness_Reserved :
    [0x08000000#32, 0x0F000000#32, 0x11000000#32, 0x1F000000#32, 0x24000000#32, 0xFF000000#32, 0x100C0000#32,
      0x10FF0000#32].all (fun w => decide (Reserved w)) = true := by decide

/-- The neighbours of the reserved ranges are not reserved. -/
theorem witness_not_Reserved :
    [0x07FFFFFF#32, 0x10000000#32, 0x100BFFFF#32, 0x20FFFFFF#32, 0x23FFFFFF#32].all
      (fun w => !decide (Reserved w)) = true := by decide

theorem witness_ReservedWordIsRefused :
    ∃ s : State, s.Idle ∧ s.port = [0x08000000#32] ∧ Reserved 0x08000000 :=
  ⟨{ State.reset with port := [0x08000000#32] }, rfl, rfl, by decide⟩

theorem witness_StepRunsDecodedOperation :
    ∃ s : State, s.Idle ∧ decode s.port = .operation (.putcat 0 0 0x48) [0x01000000#32] :=
  ⟨{ State.reset with port := [0x04000048#32, 0x01000000#32] }, rfl, by decide⟩

theorem witness_IdleBlockWaits :
    (State.reset.Idle ∧ State.reset.port = []) ∧
    (0x06010000#32).extractLsb' 24 8 = 0x06#8 ∧ ([] : List Word).length < 2 ∧ [1#32].length < 2 := by decide

theorem witness_StrapIsSampledAtReset :
    (0b100 : BitVec 3).toNat < 5 ∧ 5 ≤ (0b101 : BitVec 3).toNat ∧ 5 ≤ (0b111 : BitVec 3).toNat := by decide

theorem witness_BusyBlockAcceptsNothing :
    (acceptInstr (.locate 1 1) State.reset).pending = [.setCol 1, .setRow 1, .respond 0] := by decide

/-- Every kind of statement can stand next: one for each clause, at the ends of its values. -/
theorem witness_BusyBlock_everyStatement :
    ∀ a ∈ [Act.emit (.setRS 1), .emit (.setE 1), .emit (.setD 15), .emit (.setRW 0), .emit (.dly 0), .setEntry 255,
        .setDctrl 255, .setCol 255, .setRow 255, .respond 0xFFFFFFFF],
      { State.reset with pending := [a] }.pending = a :: [] := by decide

theorem witness_StatementwiseRun : State.reset.Idle ∧ 0 < (plan .clear State.reset).length := by decide

/-- The invariant holds with a word on the port, and the step from there answers a next state. -/
theorem witness_StepKeepsInvariant_idle :
    (State.reset.withFetchWord 32 0x01000000).Inv ∧ ∃ t, step (State.reset.withFetchWord 32 0x01000000) = .next t :=
  ⟨⟨by decide, by decide, by decide, by decide, by decide⟩, _, rfl⟩

/-- The invariant holds in the middle of an operation, with `E` high, and the step from there answers a next state. -/
theorem witness_StepKeepsInvariant_busy :
    let s : State :=
      { fresh .lcd16x2 true with e := 1, trace := [.setE 1], pending := [.emit (.setE 0), .emit (.setRW 0)] }
    s.Inv ∧ ∃ t, step s = .next t :=
  ⟨⟨by decide, by decide, by decide, fun v h => by simp at h; exact h, fun h => by cases h⟩, _, rfl⟩

theorem witness_StepKeepsConfigurationAndTrace : ∃ t, step State.reset = .next t := ⟨_, rfl⟩

/-- For the clauses about the views: `E` at rest and the default nibbles. -/
theorem witness_restingEnable :
    State.reset.e = 0 ∧ State.reset.initNibbles = InitNibbles.default ∧ State.reset.initNibbles.fourth.isSome = true := by
  decide

/-- Each clause of PUTC at the boundary of its range: newline; the last column; the last column but one. -/
theorem witness_PutcResult :
    (cursorAt .lcd16x2 15 1).col.toNat + 1 ≥ columns (cursorAt .lcd16x2 15 1).ptype ∧
    (cursorAt .lcd16x2 14 1).col.toNat + 1 < columns (cursorAt .lcd16x2 14 1).ptype ∧ (0x0B : Byte) ≠ 0x0A := by decide

theorem witness_OnlyLocateLeavesPanel :
    CursorInRange (cursorAt .lcd20x4 19 3) ∧ (∀ col row, Instr.putc 0x41 ≠ .locate col row) ∧
    ∃ t, exec (.putc 0x41) (cursorAt .lcd20x4 19 3) = .next t :=
  ⟨by decide, fun _ _ h => (by cases h), _, rfl⟩

theorem witness_OnlyCursorOperationsMoveCursor :
    ∃ t, exec (.putc 0x0A) (fresh .lcd16x2 false) = .next t ∧ t.row ≠ (fresh .lcd16x2 false).row :=
  ⟨_, rfl, by decide⟩

theorem witness_FlagChanges :
    (∃ t, exec .setmodeDisplayOn (flagged 0 0) = .next t ∧ t.dctrl[2] ≠ (flagged 0 0).dctrl[2]) ∧
    (∃ t, exec .setmodeCursorOn (flagged 0 0) = .next t ∧ t.dctrl[1] ≠ (flagged 0 0).dctrl[1]) ∧
    (∃ t, exec .setmodeBlinkOn (flagged 0 0) = .next t ∧ t.dctrl[0] ≠ (flagged 0 0).dctrl[0]) ∧
    (∃ t, exec .setmodeLeftToRight (flagged 0 0) = .next t ∧ t.entry[1] ≠ (flagged 0 0).entry[1]) ∧
    ∃ t, exec .setmodeAutoscrollOn (flagged 0 0) = .next t ∧ t.entry[0] ≠ (flagged 0 0).entry[0] :=
  ⟨⟨_, rfl, by decide⟩, ⟨_, rfl, by decide⟩, ⟨_, rfl, by decide⟩, ⟨_, rfl, by decide⟩, ⟨_, rfl, by decide⟩⟩

/-- Slots 0 and 7 with eight bytes; slots 8 and 255. -/
theorem witness_Defglyph :
    ([1, 2, 3, 4, 5, 6, 7, 8] : List Byte).length = 8 ∧ (0 : Byte).toNat ≤ 7 ∧ (7 : Byte).toNat ≤ 7 ∧
    8 ≤ (8 : Byte).toNat ∧ 8 ≤ (255 : Byte).toNat ∧
    (0x06080000#32).extractLsb' 24 8 = 0x06#8 ∧ (0x06080000#32).extractLsb' 16 8 = 8#8 ∧
    (0x06FF0000#32).extractLsb' 16 8 = 255#8 := by decide

/-- The corners of the 20x4 panel and its rows between; the last place of the 40x2 panel; the first row off a panel; the first column off a panel; the two-row panels. -/
theorem witness_AddressTranslation :
    ((0 : Byte).toNat < columns .lcd20x4 ∧ (0 : Byte).toNat < rows .lcd20x4) ∧
    ((19 : Byte).toNat < columns .lcd20x4 ∧ (3 : Byte).toNat < rows .lcd20x4) ∧
    ((19 : Byte).toNat < columns .lcd20x4 ∧ (1 : Byte).toNat < rows .lcd20x4 ∧ (2 : Byte).toNat < rows .lcd20x4) ∧
    ((39 : Byte).toNat < columns .lcd40x2 ∧ (1 : Byte).toNat < rows .lcd40x2) ∧
    rows .lcd20x4 ≤ (4 : Byte).toNat ∧ (1 : Byte).toNat < rows .lcd16x2 ∧
    PanelType.lcd40x2 ≠ .lcd20x4 ∧ 1 < rows .lcd40x2 := by decide

theorem witness_ReadWriteLine :
    (fresh .lcd16x2 false).rw = none ∧ (fresh .lcd16x2 true).rw = some 0 ∧
    Event.setRW 0 ∈ (after .init (fresh .lcd16x2 true)).trace := by decide +kernel

/-- CLEAR sends 0x01 and HOME sends 0x02; PUTCAT at the last column sends a data byte. -/
theorem witness_SlowCommands :
    ByteItem.cmd 0x01 ∈ bytesFrom State.reset (after .clear State.reset).trace ∧
    ByteItem.cmd 0x02 ∈ bytesFrom State.reset (after .home State.reset).trace ∧
    ByteItem.data 0x41 ∈ bytesFrom State.reset (after (.putcat 15 1 0x41) State.reset).trace := by decide

theorem witness_ColumnInRange :
    ColumnInRange .clear State.reset ∧ ColumnInRange .home State.reset ∧ ColumnInRange (.putcat 15 1 0x41) State.reset ∧
    ColumnInRange (.putc 0x41) State.reset :=
  ⟨⟨fun _ _ _ h => (by cases h), fun _ h => (by cases h)⟩, ⟨fun _ _ _ h => (by cases h), fun _ h => (by cases h)⟩,
   ⟨fun _ _ _ h => (by cases h; decide), fun _ h => (by cases h)⟩,
   ⟨fun _ _ _ h => (by cases h), fun _ _ => by decide⟩⟩

end Sys2Proof.Tests
end

section
/-! SUPPORT. What the shared parts of the operations never do: no bus transfer writes `RW` (R115, R37) and none leaves `E` high
(R35). -/

namespace Sys2Proof.Machine

/-! ### Writes of `RW` -/

@[simp] theorem setRW_not_mem_delay (w : Bit) (t : Nat) : Act.emit (.setRW w) ∉ delay t := by
  simp [delay]

@[simp] theorem setRW_not_mem_writeNib (w : Bit) (t : Timing) (n : Nibble) : Act.emit (.setRW w) ∉ writeNib t n := by
  simp [writeNib, pulse]

@[simp] theorem setRW_not_mem_writeByte (w : Bit) (t : Timing) (v : Byte) : Act.emit (.setRW w) ∉ writeByte t v := by
  simp [writeByte]

@[simp] theorem setRW_not_mem_writeCmd (w : Bit) (t : Timing) (v : Byte) : Act.emit (.setRW w) ∉ writeCmd t v := by
  simp [writeCmd]

@[simp] theorem setRW_not_mem_writeData (w : Bit) (t : Timing) (v : Byte) : Act.emit (.setRW w) ∉ writeData t v := by
  simp [writeData]

@[simp] theorem setRW_not_mem_writeBitmap (w : Bit) (t : Timing) (bitmap : List Byte) :
    Act.emit (.setRW w) ∉ writeBitmap t bitmap := by
  induction bitmap with
  | nil => simp [writeBitmap]
  | cons b bitmap ih => simp [writeBitmap, ih]

@[simp] theorem setRW_not_mem_positionedWrite (w : Bit) (s : State) (col row glyph : Byte) :
    Act.emit (.setRW w) ∉ positionedWrite s col row glyph := by
  simp [positionedWrite]

@[simp] theorem setRW_not_mem_newRow (w : Bit) (s : State) : Act.emit (.setRW w) ∉ newRow s := by
  simp [newRow]

@[simp] theorem setRW_not_mem_advanceColumn (w : Bit) (s : State) : Act.emit (.setRW w) ∉ advanceColumn s := by
  unfold advanceColumn
  split <;> simp

@[simp] theorem setRW_not_mem_initNibblePhase (w : Bit) (t : Timing) (n : InitNibbles) :
    Act.emit (.setRW w) ∉ initNibblePhase t n := by
  rcases n with ⟨a, b, c, _ | x⟩ <;> simp [initNibblePhase]

theorem setRW_not_mem_displayMode (w : Bit) (flags : Byte) (s : State) :
    Act.emit (.setRW w) ∉ displayMode flags s := by
  simp [displayMode]

theorem setRW_not_mem_entryMode (w : Bit) (flags : Byte) (s : State) :
    Act.emit (.setRW w) ∉ entryMode flags s := by
  simp [entryMode]

theorem setRW_not_mem_scrollMode (w : Bit) (cmd : Byte) (s : State) :
    Act.emit (.setRW w) ∉ scrollMode cmd s := by
  simp [scrollMode]

/-- Only INIT writes `RW`, where the line exists and to 0 (R115, R130; decision D7). -/
theorem setRW_mem_plan_iff (i : Instr) (s : State) (w : Bit) :
    Act.emit (.setRW w) ∈ plan i s ↔ i = .init ∧ s.hasRw = true ∧ w = 0 := by
  cases i with
  | init => cases h : s.hasRw <;> simp [plan, planInit, h]
  | clear => simp [plan, planClear]
  | home => simp [plan, planHome]
  | locate col row => simp [plan, planLocate]
  | putcat col row glyph => simp [plan, planPutcat]
  | putc ch =>
    by_cases h : ch = 0x0A
    · simp [plan, planPutc_newline h]
    · simp [plan, planPutc_character h]
  | defglyph slot bitmap =>
    simp only [plan, planDefglyph]
    split <;> simp
  | getc | rows | cols | addr | rdsr => simp [plan, planGetc, planRows, planCols, planAddr, planRdsr]
  | setmodeDisplayOn | setmodeDisplayOff | setmodeCursorOn | setmodeCursorOff | setmodeBlinkOn | setmodeBlinkOff =>
    exact iff_of_false (setRW_not_mem_displayMode w _ s) (by simp)
  | setmodeLeftToRight | setmodeRightToLeft | setmodeAutoscrollOn | setmodeAutoscrollOff =>
    exact iff_of_false (setRW_not_mem_entryMode w _ s) (by simp)
  | setmodeScrollLeft | setmodeScrollRight =>
    exact iff_of_false (setRW_not_mem_scrollMode w _ s) (by simp)

/-- Without the line no event writes it (R8, R37). -/
theorem setRW_not_mem_eventsOf_false (w : Bit) (as : List Act) : Event.setRW w ∉ eventsOf false as := by
  induction as with
  | nil => simp [eventsOf]
  | cons a as ih =>
    cases a with
    | emit ev => cases ev <;> simp [eventsOf, ih]
    | _ => simpa [eventsOf] using ih

/-- Statements that write only 0 to `RW` keep it at 0 (R37). -/
theorem performAll_rw_zero {as : List Act} {s : State} (hs : ∀ v, s.rw = some v → v = 0)
    (has : ∀ v, Act.emit (.setRW v) ∈ as → v = 0) : ∀ v, (performAll as s).rw = some v → v = 0 := by
  induction as generalizing s with
  | nil => exact hs
  | cons a as ih =>
    refine ih ?_ fun v hv => has v (List.mem_cons_of_mem a hv)
    cases a with
    | emit ev =>
      cases ev with
      | setRW w =>
        intro v hv
        rw [perform_emit, emit_setRW_rw, Option.map_eq_some_iff] at hv
        obtain ⟨-, -, rfl⟩ := hv
        exact has w List.mem_cons_self
      | _ => exact hs
    | _ => exact hs

/-! ### The enable line at rest -/

theorem performAll_writeBitmap_e (t : Timing) (bitmap : List Byte) {s : State} (he : s.e = 0) :
    (performAll (writeBitmap t bitmap) s).e = 0 := by
  cases bitmap with
  | nil => exact he
  | cons b bitmap => simp [performAll_writeBitmap]

theorem performAll_advanceColumn_e (s u : State) : (performAll (advanceColumn s) u).e = u.e := by
  rw [performAll_advanceColumn]
  split <;> rfl

theorem performAll_displayMode_e (flags : Byte) (s u : State) : (performAll (displayMode flags s) u).e = 0 := by
  simp [displayMode, performAll_append, performAll_writeCmd]

theorem performAll_entryMode_e (flags : Byte) (s u : State) : (performAll (entryMode flags s) u).e = 0 := by
  simp [entryMode, performAll_append, performAll_writeCmd]

theorem performAll_scrollMode_e (cmd : Byte) (s u : State) : (performAll (scrollMode cmd s) u).e = 0 := by
  simp [scrollMode, performAll_append, performAll_writeCmd]

/-- An operation that starts with `E` at 0 ends with it at 0 (R35). -/
theorem performAll_plan_e (i : Instr) {s : State} (he : s.e = 0) : (performAll (plan i s) s).e = 0 := by
  cases i with
  | init => simp [plan, planInit, performAll_append, performAll_writeCmd]
  | clear => simp [plan, planClear, performAll_append, performAll_writeCmd]
  | home => simp [plan, planHome, performAll_append, performAll_writeCmd]
  | locate col row => exact he
  | putcat col row glyph => simp [plan, planPutcat, performAll_append, performAll_positionedWrite]
  | putc ch =>
    by_cases h : ch = 0x0A
    · simp [plan, planPutc_newline h, performAll_append, performAll_newRow, he]
    · simp [plan, planPutc_character h, performAll_append, performAll_positionedWrite, performAll_advanceColumn_e]
  | defglyph slot bitmap =>
    simp only [plan, planDefglyph]
    split
    · exact he
    · simp [performAll_append, performAll_writeCmd, performAll_writeBitmap_e]
  | getc | rows | cols | addr | rdsr => exact he
  | setmodeDisplayOn | setmodeDisplayOff | setmodeCursorOn | setmodeCursorOff | setmodeBlinkOn | setmodeBlinkOff =>
    exact performAll_displayMode_e _ s s
  | setmodeLeftToRight | setmodeRightToLeft | setmodeAutoscrollOn | setmodeAutoscrollOff =>
    exact performAll_entryMode_e _ s s
  | setmodeScrollLeft | setmodeScrollRight => exact performAll_scrollMode_e _ s s

end Sys2Proof.Machine
end

section
/-! The invariant: statements keep it, so every step keeps it at either grain (O18). -/

namespace Sys2Proof.Machine

/-- Statements do not read the sequencer's position. -/
theorem performAll_with_pending (as : List Act) (s : State) (p : List Act) :
    performAll as { s with pending := p } = { performAll as s with pending := p } := by
  induction as generalizing s with
  | nil => rfl
  | cons a as ih => rw [performAll_cons, perform_with_pending, ih, performAll_cons]

/-- The words on the host's port are no part of the invariant of an idle block. -/
theorem State.Inv.with_port {s : State} (h : s.Inv) (hidle : s.Idle) (ws : List Word) :
    State.Inv { s with port := ws } where
  traceSaysPins := h.traceSaysPins
  enableRestsLow := by simpa [show s.pending = [] from hidle] using h.enableRestsLow
  writeModeHeld := h.writeModeHeld
  writeModeKept := h.writeModeKept
  absentLineSilent := h.absentLineSilent

/-- Executing statements keeps the invariant, whatever stays pending, if they and the statements left write only 0 to `RW` and
end with `E` at 0. -/
theorem State.Inv.after_performAll {s : State} (h : s.Inv) {as rest : List Act}
    (hrw : ∀ v, Act.emit (.setRW v) ∈ as ++ rest → v = 0) (he : (performAll (as ++ rest) s).e = 0) :
    State.Inv { performAll as s with pending := rest } where
  traceSaysPins := by
    change replay (resetPins (performAll as s).hasRw) (performAll as s).trace =
      (performAll as s).pinState
    rw [performAll_hasRw, performAll_trace, replay_append, h.traceSaysPins, performAll_pinState]
  enableRestsLow := by
    rw [performAll_append] at he
    simpa only [performAll_with_pending] using he
  writeModeHeld := performAll_rw_zero h.writeModeHeld fun v hv => hrw v (List.mem_append_left rest hv)
  writeModeKept v hv := hrw v (List.mem_append_right as hv)
  absentLineSilent := by
    intro habsent v
    have hline : s.hasRw = false := by
      rw [← performAll_hasRw as s]
      simp_all [State.hasRw]
    have hrw : s.rw = none := by simpa [State.hasRw] using hline
    change Event.setRW v ∉ (performAll as s).trace
    rw [performAll_trace, hline, List.mem_append, not_or]
    exact ⟨h.absentLineSilent hrw v, setRW_not_mem_eventsOf_false v as⟩

/-- Settles O18: a statement of a running operation, and a whole operation of an idle block, are both lists of statements that
write only 0 to `RW` and end with `E` at 0. -/
theorem stepKeepsInvariant : Obligations.StepKeepsInvariant := by
  intro s t h hstep
  obtain ⟨a, rest, hp, rfl⟩ | ⟨i, rest, hidle, -, rfl⟩ | ⟨-, -, rfl⟩ := step_cases hstep
  case inl =>
    have hacts : [a] ++ rest = s.pending := hp.symm
    exact h.after_performAll (hacts ▸ h.writeModeKept) (hacts ▸ h.enableRestsLow)
  case inr.inl =>
    have hp : s.pending = [] := hidle
    have hu : State.Inv { s with port := rest } := h.with_port hidle rest
    have he : s.e = 0 := by simpa [hp] using h.enableRestsLow
    have hplan := hu.after_performAll (as := plan i { s with port := rest }) (rest := [])
      (fun v hv => ((setRW_mem_plan_iff i _ v).1 (List.append_nil _ ▸ hv)).2.2)
      ((List.append_nil _).symm ▸ performAll_plan_e i he)
    rwa [← performAll_with_pending, ← hp] at hplan
  case inr.inr => exact h

end Sys2Proof.Machine
end

section
/-! One step's effect and frame (O9, O19, O7). -/

namespace Sys2Proof.Machine

/-- A step in the middle of an operation is its next statement (R21). -/
theorem step_of_pending {s : State} {a : Act} {rest : List Act} (h : s.pending = a :: rest) :
    step s = .next { perform a s with pending := rest } := by
  rw [← perform_with_pending, ← tick_of_pending h]
  simp [step, h]

/-- A step of an idle block is the operation on its port (R16). -/
theorem step_of_operation {s : State} {i : Instr} {rest : List Word} (hidle : s.Idle)
    (h : decode s.port = .operation i rest) : step s = exec i { s with port := rest } := by
  simp [step, show s.pending = [] from hidle, h]

/-- The decoder answers well-formed operations only. -/
theorem decode_wellFormed {ws rest : List Word} {i : Instr} (h : decode ws = .operation i rest) :
    i.wellFormed = true := by
  obtain ⟨w, -, -, hone⟩ | ⟨w, p0, p1, -, -, rfl⟩ := decode_cases h
  · exact decodeOne_wellFormed hone
  · rfl

theorem perform_sameConfig (a : Act) (s : State) : SameConfig s (perform a s) := by
  simp [SameConfig]

theorem performAll_sameConfig (as : List Act) (s : State) : SameConfig s (performAll as s) := by
  simp [SameConfig]

/-- Settles O9: a step in the middle of an operation performs the next statement, and each kind of statement has its one
effect. -/
theorem busyBlockAcceptsNothing : Obligations.BusyBlockAcceptsNothing := by
  intro s a rest hp
  refine ⟨_, step_of_pending hp, perform_port a s, rfl, perform_sameConfig a s, perform_trace a s, ?_⟩
  cases a with
  | emit ev =>
    cases ev with
    | setRW v => cases h : s.rw <;> simp [emit, State.hasRw, h]
    | _ => rfl
  | setEntry v => simp [perform, BitVec.setWidth_eq_extractLsb']
  | setDctrl v => simp [perform, BitVec.setWidth_eq_extractLsb']
  | _ => rfl

/-- Settles O19: whatever a step does, it performs statements. -/
theorem stepKeepsConfigurationAndTrace : Obligations.StepKeepsConfigurationAndTrace := by
  intro s t hstep
  obtain ⟨a, rest, -, rfl⟩ | ⟨i, rest, -, -, rfl⟩ | ⟨-, -, rfl⟩ := step_cases hstep
  case inl => exact ⟨perform_sameConfig a s, _, perform_trace a s⟩
  case inr.inl => exact ⟨performAll_sameConfig _ { s with port := rest }, _, performAll_trace _ _⟩
  case inr.inr => exact ⟨⟨rfl, rfl, rfl, rfl⟩, [], (List.append_nil _).symm⟩

/-- Settles O7: the decoder answers well-formed operations, and `step` dispatches to `exec`. -/
theorem stepRunsDecodedOperation : Obligations.StepRunsDecodedOperation := fun _ _ _ hidle hdecode =>
  ⟨decode_wellFormed hdecode, step_of_operation hidle hdecode⟩

end Sys2Proof.Machine
end

section
/-! What the controller sees of a frame (O22). -/

namespace Sys2Proof.Machine

/-- A nibble frame is one latch, two pulse levels into the frame; the third level counts towards the next latch (R89, R110). -/
theorem latchedNibbles_nibbleFrame (p : PinState) (w : Nat) (t : Timing) (n : Nibble) (rest : List Event) (he : p.e = 0) :
    latchedNibbles p w (nibbleFrame t n ++ rest) =
      { rs := p.rs, d := n, wait := w + 2 * t.tPulse } ::
        latchedNibbles { p with e := 0, d := n } t.tPulse rest := by
  simp [nibbleFrame, latchedNibbles, fallingEdge, pinsAfter, eventDelay, he, two_mul, Nat.add_assoc]

/-- A byte lasts six pulse levels and the settle time (R112). -/
theorem duration_byteFrame (t : Timing) (v : Byte) : duration (byteFrame t v) = byteTime t := by
  have hsettle : duration [.dly t.tSettle] = t.tSettle := rfl
  rw [byteFrame, duration_append, duration_append, duration_nibbleFrame, duration_nibbleFrame, hsettle, byteTime]
  omega

/-- The write of `RS` before a byte takes no time. -/
theorem duration_cmdFrame (t : Timing) (v : Byte) : duration (cmdFrame t v) = byteTime t := by
  simpa [cmdFrame, duration, eventDelay] using duration_byteFrame t v

theorem duration_dataFrame (t : Timing) (v : Byte) : duration (dataFrame t v) = byteTime t := by
  simpa [dataFrame, duration, eventDelay] using duration_byteFrame t v

/-- A command frame is latched as the upper and the lower nibble (R60, R90). -/
theorem latchedNibbles_cmdFrame (p : PinState) (t : Timing) (v : Byte) (he : p.e = 0) :
    latchedNibbles p 0 (cmdFrame t v) =
      [{ rs := 0, d := v.extractLsb' 4 4, wait := 2 * t.tPulse },
       { rs := 0, d := v.extractLsb' 0 4, wait := 3 * t.tPulse }] := by
  have hrs : latchedNibbles p 0 (cmdFrame t v) = latchedNibbles { p with rs := 0 } 0 (byteFrame t v) := by
    simp [cmdFrame, latchedNibbles, fallingEdge, pinsAfter, eventDelay, he]
  rw [hrs, byteFrame, List.append_assoc, latchedNibbles_nibbleFrame { p with rs := 0 } _ _ _ _ he,
    latchedNibbles_nibbleFrame _ _ _ _ _ rfl]
  have hwait : t.tPulse + 2 * t.tPulse = 3 * t.tPulse := by omega
  simp [latchedNibbles, fallingEdge, pinsAfter, hwait]

/-- Settles O22, frame by frame. -/
theorem framesAreSeenAsBytes : Obligations.FramesAreSeenAsBytes := by
  intro s v he
  refine ⟨latchedNibbles_cmdFrame s.pinState s.timing v he, ?_, ?_, duration_cmdFrame _ v, duration_dataFrame _ v⟩
  · simpa [bytesFrom, byteSequence, loneNibble] using byteSequence_cmdFrame s.pinState false s.timing v [] he
  · simpa [bytesFrom, byteSequence, loneNibble] using byteSequence_dataFrame s.pinState false s.timing v [] he

end Sys2Proof.Machine
end

section
/-! The two grains of R21: a run of single steps performs the statements accepted (O10). -/

namespace Sys2Proof.Machine

/-- A run takes the first step and goes on from its next state. -/
theorem run_succ_of_step {M : Host.Core} {s t : M.State} (h : M.step s = .next t) (k : Nat) :
    M.run (k + 1) s = M.run k t := by
  simp [Host.Core.run, h]

/-- A statement does not read what else has been accepted. -/
theorem perform_accept (a : Act) (as : List Act) (s : State) : perform a (accept as s) = accept as (perform a s) :=
  perform_with_pending a s as

/-- As many steps as a block has statements in front of others perform just those statements (R21, R39). -/
theorem run_accept_append (as rest : List Act) (s : State) :
    Sys2Proof.core.run as.length (accept (as ++ rest) s) = .next { performAll as s with pending := rest } := by
  induction as generalizing s with
  | nil => rfl
  | cons a as ih =>
    have hstep : Sys2Proof.core.step (accept (a :: as ++ rest) s) = .next (accept (as ++ rest) (perform a s)) := by
      refine (step_of_pending (s := accept (a :: as ++ rest) s) rfl).trans ?_
      rw [perform_accept]
      rfl
    exact (run_succ_of_step hstep as.length).trans (ih (perform a s))

/-- Settles O10: the steps perform the whole plan, and the sequencer is idle again, as it was before the acceptance. -/
theorem statementwiseRunIsAtomicRun : Obligations.StatementwiseRunIsAtomicRun := by
  intro i s hidle
  have hrun := run_accept_append (plan i s) [] s
  have hpending : (performAll (plan i s) s).pending = [] := (performAll_pending _ s).trans hidle
  rw [List.append_nil, ← hpending] at hrun
  rw [exec_eq_plan]
  exact hrun

end Sys2Proof.Machine
end

section
/-! What each operation leaves in the tracked registers `ENTRY`, `DCTRL`, `COL` and `ROW` (R22 to R29), said once. -/

namespace Sys2Proof.Machine

/-- The tracked registers, as read (R22 to R29). -/
structure Tracked where
  entry : Byte
  dctrl : Byte
  col : Byte
  row : Byte

/-- The tracked registers of a state. -/
def State.tracked (s : State) : Tracked := { entry := s.entry, dctrl := s.dctrl, col := s.col, row := s.row }

/-- The tracked registers after PUTC: a newline and the last column go to the next row (R153 to R155). -/
def trackedAfterPutc (ch : Byte) (s : State) : Tracked :=
  if ch = 0x0A ∨ columns s.ptype ≤ s.col.toNat + 1 then
    { s.tracked with col := 0, row := nextRow s.ptype s.row }
  else
    { s.tracked with col := s.col + 1 }

/-- PUTC writes no flag (R27). -/
@[simp] theorem trackedAfterPutc_entry (ch : Byte) (s : State) : (trackedAfterPutc ch s).entry = s.entry := by
  unfold trackedAfterPutc
  split <;> rfl

@[simp] theorem trackedAfterPutc_dctrl (ch : Byte) (s : State) : (trackedAfterPutc ch s).dctrl = s.dctrl := by
  unfold trackedAfterPutc
  split <;> rfl

/-- The tracked registers after an operation (R130, R133, R135, R150, R153, R171 to R182); `exec_tracked` says that `exec` leaves
these. -/
def trackedAfter (i : Instr) (s : State) : Tracked :=
  match i with
  | .init => { entry := 0x02, dctrl := 0x00, col := 0, row := 0 }
  | .clear | .home => { s.tracked with col := 0, row := 0 }
  | .locate col row => { s.tracked with col := col, row := row }
  | .putc ch => trackedAfterPutc ch s
  | .setmodeDisplayOn => { s.tracked with dctrl := setFlag bitD s.dctrl }
  | .setmodeDisplayOff => { s.tracked with dctrl := clearFlag bitD s.dctrl }
  | .setmodeCursorOn => { s.tracked with dctrl := setFlag bitC s.dctrl }
  | .setmodeCursorOff => { s.tracked with dctrl := clearFlag bitC s.dctrl }
  | .setmodeBlinkOn => { s.tracked with dctrl := setFlag bitB s.dctrl }
  | .setmodeBlinkOff => { s.tracked with dctrl := clearFlag bitB s.dctrl }
  | .setmodeLeftToRight => { s.tracked with entry := setFlag bitID s.entry }
  | .setmodeRightToLeft => { s.tracked with entry := clearFlag bitID s.entry }
  | .setmodeAutoscrollOn => { s.tracked with entry := setFlag bitS s.entry }
  | .setmodeAutoscrollOff => { s.tracked with entry := clearFlag bitS s.entry }
  | .putcat _ _ _ | .defglyph _ _ | .getc | .setmodeScrollLeft | .setmodeScrollRight => s.tracked
  | .rows | .cols | .addr _ _ | .rdsr _ => s.tracked

/-! ### The shared parts -/

theorem DisplayModeResult.tracked {flags : Byte} {s t : State} (h : DisplayModeResult flags s t) :
    t.tracked = { s.tracked with dctrl := flags } := by
  obtain ⟨hflags, hrest⟩ := h
  have hentry : t.entry = s.entry := by rw [hrest]; rfl
  have hcol : t.col = s.col := by rw [hrest]
  have hrow : t.row = s.row := by rw [hrest]
  simp [State.tracked, hflags, hentry, hcol, hrow]

theorem EntryModeResult.tracked {flags : Byte} {s t : State} (h : EntryModeResult flags s t) :
    t.tracked = { s.tracked with entry := flags } := by
  obtain ⟨hflags, hrest⟩ := h
  have hdctrl : t.dctrl = s.dctrl := by rw [hrest]; rfl
  have hcol : t.col = s.col := by rw [hrest]
  have hrow : t.row = s.row := by rw [hrest]
  simp [State.tracked, hflags, hdctrl, hcol, hrow]

theorem performAll_scrollMode_tracked (cmd : Byte) (s : State) :
    (performAll (scrollMode cmd s) s).tracked = s.tracked := by
  rw [performAll_scrollMode]
  rfl

theorem performAll_writeBitmap_tracked (t : Timing) (bitmap : List Byte) (s : State) :
    (performAll (writeBitmap t bitmap) s).tracked = s.tracked := by
  cases bitmap with
  | nil => rfl
  | cons b bitmap =>
    rw [performAll_writeBitmap]
    rfl

theorem performAll_planPutc_tracked (ch : Byte) (s : State) :
    (performAll (planPutc ch s) s).tracked = trackedAfterPutc ch s := by
  unfold trackedAfterPutc
  by_cases hnl : ch = 0x0A
  · rw [planPutc_newline hnl, if_pos (.inl hnl)]
    rfl
  · rw [planPutc_character hnl, performAll_append, performAll_append, performAll_positionedWrite,
      performAll_advanceColumn]
    by_cases hwrap : columns s.ptype ≤ s.col.toNat + 1
    · rw [if_pos hwrap, if_pos (.inr hwrap)]
      rfl
    · rw [if_neg hwrap, if_neg (not_or.2 ⟨hnl, hwrap⟩)]
      rfl

theorem performAll_planInit_tracked (s : State) :
    (performAll (planInit s) s).tracked = { entry := 0x02, dctrl := 0x00, col := 0, row := 0 } := by
  simp [planInit, performAll_append, performAll_writeCmd, State.tracked, State.entry, State.dctrl]

/-! ### The operations -/

theorem performAll_plan_tracked (i : Instr) (s : State) :
    (performAll (plan i s) s).tracked = trackedAfter i s := by
  obtain ⟨setID, clearID, setS, clearS, setD, clearD, setC, clearC, setB, clearB⟩ := flags_implemented s
  cases i with
  | init => exact performAll_planInit_tracked s
  | clear | home =>
    simp only [plan, planClear, planHome, performAll_append, performAll_writeCmd]
    rfl
  | putcat col row glyph =>
    simp only [plan, planPutcat, performAll_append, performAll_positionedWrite]
    rfl
  | putc ch => exact performAll_planPutc_tracked ch s
  | defglyph slot bitmap =>
    simp only [plan, planDefglyph]
    split
    · rfl
    · simp only [performAll_append, performAll_writeCmd]
      exact performAll_writeBitmap_tracked _ _ _
  | setmodeDisplayOn => exact (performAll_displayMode _ s setD).tracked
  | setmodeDisplayOff => exact (performAll_displayMode _ s clearD).tracked
  | setmodeCursorOn => exact (performAll_displayMode _ s setC).tracked
  | setmodeCursorOff => exact (performAll_displayMode _ s clearC).tracked
  | setmodeBlinkOn => exact (performAll_displayMode _ s setB).tracked
  | setmodeBlinkOff => exact (performAll_displayMode _ s clearB).tracked
  | setmodeLeftToRight => exact (performAll_entryMode _ s setID).tracked
  | setmodeRightToLeft => exact (performAll_entryMode _ s clearID).tracked
  | setmodeAutoscrollOn => exact (performAll_entryMode _ s setS).tracked
  | setmodeAutoscrollOff => exact (performAll_entryMode _ s clearS).tracked
  | setmodeScrollLeft | setmodeScrollRight => exact performAll_scrollMode_tracked _ s
  | locate | getc | rows | cols | addr | rdsr => rfl

/-- What an operation leaves in the tracked registers. -/
theorem exec_tracked {i : Instr} {s t : State} (h : exec i s = .next t) : t.tracked = trackedAfter i s := by
  rw [exec_eq_plan] at h
  cases h
  exact performAll_plan_tracked i s

/-- No operation changes the panel (R235). -/
theorem exec_ptype {i : Instr} {s t : State} (h : exec i s = .next t) : t.ptype = s.ptype := by
  rw [exec_eq_plan] at h
  cases h
  exact performAll_ptype _ s

end Sys2Proof.Machine
end

section
/-! The tracked cursor (O33, O34). -/

namespace Sys2Proof.Machine

/-- The tracked position lies on panel `p` (R28, R29). -/
def Tracked.OnPanel (p : PanelType) (r : Tracked) : Prop := r.col.toNat < columns p ∧ r.row.toNat < rows p

theorem cursorInRange_iff (s : State) : CursorInRange s ↔ s.tracked.OnPanel s.ptype := Iff.rfl

/-- A panel has a column 0 and a row 0 (R54). -/
theorem Tracked.onPanel_origin (p : PanelType) (entry dctrl : Byte) :
    Tracked.OnPanel p { entry := entry, dctrl := dctrl, col := 0, row := 0 } := by
  obtain ⟨hrows, -, hcolumns, -⟩ := geometry_bounds p
  exact ⟨show 0 < columns p by omega, hrows⟩

/-- PUTC stays on the panel: it leaves column 0 of a row that exists, or a column still below `columns()` of the same row
(R154, R155). -/
theorem trackedAfterPutc_onPanel (ch : Byte) {s : State} (hs : CursorInRange s) :
    (trackedAfterPutc ch s).OnPanel s.ptype := by
  obtain ⟨-, -, hcolumns, hmax⟩ := geometry_bounds s.ptype
  unfold trackedAfterPutc
  split
  case isTrue => exact ⟨show 0 < columns s.ptype by omega, nextRow_lt s.ptype s.row⟩
  case isFalse h =>
    have hcol : (s.col + 1).toNat = s.col.toNat + 1 := BitVec.toNat_add_of_lt (by simp; omega)
    exact ⟨show (s.col + 1).toNat < columns s.ptype by omega, hs.2⟩

/-- Settles O33: INIT, CLEAR and HOME go to the origin, PUTC advances on the panel, and the others leave the cursor alone. -/
theorem onlyLocateLeavesPanel : Obligations.OnlyLocateLeavesPanel := by
  intro i s t hlocate hs hexec
  rw [cursorInRange_iff, exec_tracked hexec, exec_ptype hexec]
  cases i with
  | init | clear | home => exact Tracked.onPanel_origin _ _ _
  | locate col row => exact absurd rfl (hlocate col row)
  | putc ch => exact trackedAfterPutc_onPanel ch hs
  | _ => exact hs

/-- Settles O34: every operation but the five leaves `COL` and `ROW` as they were. -/
theorem onlyCursorOperationsMoveCursor : Obligations.OnlyCursorOperationsMoveCursor := by
  intro i s t hexec hmoved
  have htracked := exec_tracked hexec
  have hcol : t.col = (trackedAfter i s).col := congrArg Tracked.col htracked
  have hrow : t.row = (trackedAfter i s).row := congrArg Tracked.row htracked
  cases i with
  | init | clear | home | locate | putc => simp
  | _ => exact absurd hmoved (not_or.2 ⟨not_not.2 hcol, not_not.2 hrow⟩)

end Sys2Proof.Machine
end

section
/-! The flag bits (O38). -/

namespace Sys2Proof.Machine

/-- Setting one flag keeps the others (R170). -/
theorem setFlag_getElem {bit : Byte} (flags : Byte) {k : Nat} (hk : k < 8) (h : bit.getLsbD k = false) :
    (setFlag bit flags)[k] = flags[k] := by
  simp [setFlag, ← BitVec.getLsbD_eq_getElem, h]

/-- Clearing one flag keeps the others (R170). -/
theorem clearFlag_getElem {bit : Byte} (flags : Byte) {k : Nat} (hk : k < 8) (h : bit.getLsbD k = false) :
    (clearFlag bit flags)[k] = flags[k] := by
  simp [clearFlag, ← BitVec.getLsbD_eq_getElem, h, hk]

/-- Settles O38: the modes of one flag set or clear that flag in its register, and every operation but these and INIT leaves
both registers as they were. -/
theorem flagChangesOnlyUnderItsModes : Obligations.FlagChangesOnlyUnderItsModes := by
  intro i s t hexec
  have htracked := exec_tracked hexec
  have hentry : t.entry = (trackedAfter i s).entry := congrArg Tracked.entry htracked
  have hdctrl : t.dctrl = (trackedAfter i s).dctrl := congrArg Tracked.dctrl htracked
  rw [hentry, hdctrl]
  cases i with
  | init => simp
  | setmodeDisplayOn | setmodeCursorOn | setmodeBlinkOn | setmodeLeftToRight | setmodeAutoscrollOn =>
    simp (disch := decide) [trackedAfter, State.tracked, setFlag_getElem]
  | setmodeDisplayOff | setmodeCursorOff | setmodeBlinkOff | setmodeRightToLeft | setmodeAutoscrollOff =>
    simp (disch := decide) [trackedAfter, State.tracked, clearFlag_getElem]
  | _ => simp [trackedAfter, State.tracked]

end Sys2Proof.Machine
end

section
/-! The panel strap (O15). -/

namespace Sys2Proof.Machine

/-- A panel type is selected by its own strap code only (R30). -/
theorem strapCode_of_panelOfStrap {code : BitVec 3} {p : PanelType} (h : panelOfStrap code = some p) :
    strapCode p = code := by
  revert code p
  decide

/-- The strap codes 5 to 7, and only these, select no panel (R30, U6). -/
theorem panelOfStrap_eq_none_iff (code : BitVec 3) : panelOfStrap code = none ↔ 5 ≤ code.toNat := by
  revert code
  decide

/-- Settles O15: by whether the strap code selects a panel. -/
theorem strapIsSampledAtReset : Obligations.StrapIsSampledAtReset := by
  intro code c
  cases hpanel : panelOfStrap code with
  | none =>
    have hcode := (panelOfStrap_eq_none_iff code).1 hpanel
    exact ⟨fun hvalid => absurd hcode (Nat.not_le.2 hvalid), fun _ => by rw [resetFromStrap, hpanel]; rfl⟩
  | some p =>
    have hcode : ¬ 5 ≤ code.toNat := by simp [← panelOfStrap_eq_none_iff, hpanel]
    refine ⟨fun _ => ⟨State.resetWith { c with strap := p }, ?_, ?_, resetWith_hasRw _, rfl, rfl⟩,
      fun hinvalid => absurd hinvalid hcode⟩
    · rw [resetFromStrap, hpanel]
      rfl
    · exact congrArg (BitVec.setWidth 8) (strapCode_of_panelOfStrap hpanel)

end Sys2Proof.Machine
end

section
/-! The geometry table and the address translation on the panel (O43, O44). -/

namespace Sys2Proof.Machine

/-- On every panel but the 20x4 the rows lie 0x40 apart (R54). -/
theorem base_eq_mul {p : PanelType} (hp : p ≠ .lcd20x4) {r : Nat} (hr : r < rows p) : base p r = r * 0x40 := by
  revert r
  cases p with
  | lcd20x4 => exact absurd rfl hp
  | _ => decide

/-- The last place of every row has an address of at most 0x67, without the command bit (R54, R57). -/
theorem base_add_columns_le (p : PanelType) {r : Nat} (hr : r < rows p) : base p r + columns p ≤ 0x68 := by
  revert r
  cases p <;> decide

/-- Two rows of one panel do not overlap (R56). -/
theorem rows_disjoint (p : PanelType) {r : Nat} (hr : r < rows p) {r' : Nat} (hr' : r' < rows p) (hne : r ≠ r') :
    base p r + columns p ≤ base p r' ∨ base p r' + columns p ≤ base p r := by
  revert r r'
  cases p <;> decide

/-- The translation on the panel is the plain sum: it never wraps (R57). -/
theorem getAddress_toNat {p : PanelType} {c r : Byte} (hc : c.toNat < columns p) (hr : r.toNat < rows p) :
    (getAddress p c r).toNat = 0x80 + base p r.toNat + c.toNat := by
  have hle := base_add_columns_le p hr
  obtain ⟨hoff, -⟩ | ⟨-, haddr⟩ := getAddress_cases p c r
  · omega
  · rw [haddr, BitVec.toNat_ofNat]
    omega

/-- Two places of one panel with the same address are the same place (R56). -/
theorem getAddress_injOn {p : PanelType} {c r c' r' : Byte} (hc : c.toNat < columns p) (hr : r.toNat < rows p)
    (hc' : c'.toNat < columns p) (hr' : r'.toNat < rows p) (h : getAddress p c r = getAddress p c' r') :
    c = c' ∧ r = r' := by
  have hsum : 0x80 + base p r.toNat + c.toNat = 0x80 + base p r'.toNat + c'.toNat := by
    rw [← getAddress_toNat hc hr, h, getAddress_toNat hc' hr']
  have hrow : r.toNat = r'.toNat := by
    by_contra hne
    have hdisjoint := rows_disjoint p hr hr' hne
    omega
  rw [hrow] at hsum
  exact ⟨BitVec.eq_of_toNat_eq (by omega), BitVec.eq_of_toNat_eq hrow⟩

/-- Settles O43: the table is read off; the rows of the two-row panels are `base_eq_mul`. -/
theorem geometryTable : Obligations.GeometryTable := by
  have hlength (p : PanelType) : (geometry p).rowBase.length = rows p := by cases p <;> rfl
  exact ⟨⟨rfl, rfl⟩, ⟨rfl, rfl⟩, ⟨rfl, rfl⟩, ⟨rfl, rfl⟩, ⟨rfl, rfl⟩, rfl, hlength,
    fun _ _ hp hr => base_eq_mul hp hr, rfl, rfl, rfl, rfl⟩

/-- Settles O44: the sum of `getAddress_toNat`, with each row's base put in. -/
theorem addressTranslationInRange : Obligations.AddressTranslationInRange := by
  intro p c r hc hr
  have hsum := getAddress_toNat hc hr
  have hfour (k : Byte) (hp : p = .lcd20x4) (hk : r = k) :
      (getAddress p c r).toNat = 0x80 + base .lcd20x4 k.toNat + c.toNat := hp ▸ hk ▸ hsum
  refine ⟨hsum, hfour 0, hfour 1, hfour 2, hfour 3, fun hp => ?_, ?_,
    fun _ _ hc' hr' h => getAddress_injOn hc hr hc' hr' h⟩
  · rw [hsum, base_eq_mul hp hr]
  · have hle := base_add_columns_le p hr
    omega

end Sys2Proof.Machine
end

section
/-! What each operation puts on the bus, said once, as a list of transfers; its trace and its byte sequence
are read off that list. -/

namespace Sys2Proof.Machine

/-- One thing an operation does on the bus. -/
inductive Transfer
  /-- The read/write line is set to write (R115). -/
  | writeMode
  /-- `RS` is set to command, with nothing sent yet (R130). -/
  | selectCommand
  /-- A wait of its own. -/
  | wait (t : Nat)
  /-- A nibble sent alone, and the wait after it (R99). -/
  | nibble (n : Nibble) (gap : Nat)
  /-- A command byte (R116). -/
  | cmd (v : Byte)
  /-- A data byte (R117). -/
  | data (v : Byte)

/-- The events of a transfer. -/
def Transfer.frame (t : Timing) : Transfer → List Event
  | .writeMode => [.setRW 0]
  | .selectCommand => [.setRS 0]
  | .wait w => [.dly w]
  | .nibble n gap => loneNibbleFrame t gap n
  | .cmd v => cmdFrame t v
  | .data v => dataFrame t v

/-- What the controller sees of a transfer; `byteSequence_frames` says that it does. -/
def Transfer.item : Transfer → Option ByteItem
  | .writeMode | .selectCommand | .wait _ => none
  | .nibble n _ => some (.nib n)
  | .cmd v => some (.cmd v)
  | .data v => some (.data v)

/-- The events of a list of transfers. -/
def frames (t : Timing) (ts : List Transfer) : List Event := ts.flatMap (Transfer.frame t)

@[simp] theorem frames_nil (t : Timing) : frames t [] = [] := rfl

@[simp] theorem frames_cons (t : Timing) (x : Transfer) (xs : List Transfer) :
    frames t (x :: xs) = x.frame t ++ frames t xs := rfl

@[simp] theorem frames_append (t : Timing) (xs ys : List Transfer) :
    frames t (xs ++ ys) = frames t xs ++ frames t ys := List.flatMap_append

/-- From a resting enable line every transfer is seen as it was sent (R14). -/
theorem byteSequence_frames (t : Timing) (ts : List Transfer) (p : PinState) (gap : Bool) (he : p.e = 0) :
    byteSequence p none gap (frames t ts) = ts.filterMap Transfer.item := by
  induction ts generalizing p gap with
  | nil => rfl
  | cons x xs ih =>
    rw [frames_cons, List.filterMap_cons]
    cases x with
    | writeMode | selectCommand => simp [Transfer.frame, Transfer.item, byteSequence, fallingEdge, pinsAfter, he, ih]
    | wait w => cases gap <;> simp [Transfer.frame, Transfer.item, byteSequence, loneNibble, pinsAfter, he, ih]
    | nibble n w => simp [Transfer.frame, Transfer.item, loneNibbleFrame, byteSequence_nibbleFrame, he, ih]
    | cmd v => simp [Transfer.frame, Transfer.item, byteSequence_cmdFrame, he, ih]
    | data v => simp [Transfer.frame, Transfer.item, byteSequence_dataFrame, he, ih]

/-- INIT's transfers (R130). -/
def initTransfers (s : State) : List Transfer :=
  (if s.hasRw then [.writeMode] else []) ++
  [.wait s.timing.tPowerOn, .selectCommand, .nibble s.initNibbles.first s.timing.tInitGap,
    .nibble s.initNibbles.second s.timing.tInitGap, .nibble s.initNibbles.third s.timing.tInitGap] ++
  (s.initNibbles.fourth.elim [] fun n => [.nibble n s.timing.tSettle]) ++
  [.cmd 0x28, .cmd 0x08, .cmd 0x01, .wait s.timing.tLong, .cmd 0x06]

/-- The transfers of a write at a place (R151). -/
def positionedTransfers (s : State) (col row glyph : Byte) : List Transfer :=
  [.cmd (getAddress s.ptype col row), .data glyph]

/-- The transfers of every operation (R62, R130 to R203); `exec_trace` says that `exec` makes these. -/
def operationTransfers (i : Instr) (s : State) : List Transfer :=
  match i with
  | .init => initTransfers s
  | .clear => [.cmd cmdClearDisplay, .wait s.timing.tLong]
  | .home => [.cmd cmdReturnHome, .wait s.timing.tLong]
  | .putcat col row glyph => positionedTransfers s col row glyph
  | .putc ch => if ch = 0x0A then [] else positionedTransfers s s.col s.row ch
  | .defglyph slot bitmap =>
    if slot.toNat ≤ 7 then .cmd (cmdCgramAddress (slot &&& 0x7)) :: bitmap.map .data else []
  | .setmodeDisplayOn => [.cmd (cmdDisplayControl (setFlag bitD s.dctrl))]
  | .setmodeDisplayOff => [.cmd (cmdDisplayControl (clearFlag bitD s.dctrl))]
  | .setmodeCursorOn => [.cmd (cmdDisplayControl (setFlag bitC s.dctrl))]
  | .setmodeCursorOff => [.cmd (cmdDisplayControl (clearFlag bitC s.dctrl))]
  | .setmodeBlinkOn => [.cmd (cmdDisplayControl (setFlag bitB s.dctrl))]
  | .setmodeBlinkOff => [.cmd (cmdDisplayControl (clearFlag bitB s.dctrl))]
  | .setmodeLeftToRight => [.cmd (cmdEntryMode (setFlag bitID s.entry))]
  | .setmodeRightToLeft => [.cmd (cmdEntryMode (clearFlag bitID s.entry))]
  | .setmodeAutoscrollOn => [.cmd (cmdEntryMode (setFlag bitS s.entry))]
  | .setmodeAutoscrollOff => [.cmd (cmdEntryMode (clearFlag bitS s.entry))]
  | .setmodeScrollLeft => [.cmd cmdShiftLeft]
  | .setmodeScrollRight => [.cmd cmdShiftRight]
  | .locate _ _ | .getc | .rows | .cols | .addr _ _ | .rdsr _ => []

/-! ### The events of the shared parts -/

@[simp] theorem eventsOf_delay (hasRw : Bool) (t : Nat) : eventsOf hasRw (delay t) = [.dly t] := rfl

@[simp] theorem eventsOf_writeNib (hasRw : Bool) (t : Timing) (n : Nibble) :
    eventsOf hasRw (writeNib t n) = nibbleFrame t n := rfl

@[simp] theorem eventsOf_writeByte (hasRw : Bool) (t : Timing) (v : Byte) :
    eventsOf hasRw (writeByte t v) = byteFrame t v := by
  simp [writeByte, eventsOf_append, byteFrame, upperNibble_eq, lowerNibble_eq]

@[simp] theorem eventsOf_writeCmd (hasRw : Bool) (t : Timing) (v : Byte) :
    eventsOf hasRw (writeCmd t v) = cmdFrame t v := by
  simp [writeCmd, eventsOf, cmdFrame]

@[simp] theorem eventsOf_writeData (hasRw : Bool) (t : Timing) (v : Byte) :
    eventsOf hasRw (writeData t v) = dataFrame t v := by
  simp [writeData, eventsOf, dataFrame]

@[simp] theorem eventsOf_writeBitmap (hasRw : Bool) (t : Timing) (bitmap : List Byte) :
    eventsOf hasRw (writeBitmap t bitmap) = frames t (bitmap.map .data) := by
  induction bitmap with
  | nil => rfl
  | cons b bitmap ih => simp [writeBitmap, eventsOf_append, ih, Transfer.frame]

@[simp] theorem eventsOf_positionedWrite (hasRw : Bool) (s : State) (col row glyph : Byte) :
    eventsOf hasRw (positionedWrite s col row glyph) = frames s.timing (positionedTransfers s col row glyph) := by
  simp [positionedWrite, eventsOf_append, positionedTransfers, Transfer.frame]

@[simp] theorem eventsOf_newRow (hasRw : Bool) (s : State) : eventsOf hasRw (newRow s) = [] := rfl

@[simp] theorem eventsOf_advanceColumn (hasRw : Bool) (s : State) : eventsOf hasRw (advanceColumn s) = [] := by
  unfold advanceColumn
  split <;> rfl

theorem eventsOf_displayMode (hasRw : Bool) (flags : Byte) (s : State) :
    eventsOf hasRw (displayMode flags s) = frames s.timing [.cmd (cmdDisplayControl flags)] := by
  simp [displayMode, eventsOf_append, eventsOf, Transfer.frame]

theorem eventsOf_entryMode (hasRw : Bool) (flags : Byte) (s : State) :
    eventsOf hasRw (entryMode flags s) = frames s.timing [.cmd (cmdEntryMode flags)] := by
  simp [entryMode, eventsOf_append, eventsOf, Transfer.frame]

theorem eventsOf_scrollMode (hasRw : Bool) (cmd : Byte) (s : State) :
    eventsOf hasRw (scrollMode cmd s) = frames s.timing [.cmd cmd] := by
  simp [scrollMode, eventsOf_append, eventsOf, Transfer.frame]

theorem eventsOf_planInit (s : State) : eventsOf s.hasRw (planInit s) = frames s.timing (initTransfers s) := by
  cases hline : s.hasRw <;> cases hfourth : s.initNibbles.fourth <;>
    simp [planInit, initTransfers, initNibblePhase, hline, hfourth, eventsOf_append, eventsOf, Transfer.frame,
      loneNibbleFrame, cmdFunctionSet_eq, cmdDisplayControl, cmdClearDisplay, cmdEntryMode]

/-! ### The operations -/

/-- An operation's statements put its transfers on the bus, and nothing else. -/
theorem eventsOf_plan (i : Instr) (s : State) :
    eventsOf s.hasRw (plan i s) = frames s.timing (operationTransfers i s) := by
  cases i with
  | init => exact eventsOf_planInit s
  | clear => simp [plan, planClear, eventsOf_append, eventsOf, operationTransfers, Transfer.frame]
  | home => simp [plan, planHome, eventsOf_append, eventsOf, operationTransfers, Transfer.frame]
  | putcat col row glyph => simp [plan, planPutcat, eventsOf_append, eventsOf, operationTransfers]
  | putc ch =>
    by_cases h : ch = 0x0A
    · rw [operationTransfers, if_pos h]
      simp [plan, planPutc_newline h, eventsOf_append, eventsOf]
    · rw [operationTransfers, if_neg h]
      simp [plan, planPutc_character h, eventsOf_append, eventsOf]
  | defglyph slot bitmap =>
    by_cases h : slot.toNat ≤ 7
    · simp [plan, planDefglyph, eventsOf_append, eventsOf, operationTransfers, Transfer.frame, h, Nat.not_lt.2 h]
    · simp [plan, planDefglyph, eventsOf, operationTransfers, h, Nat.lt_of_not_le h]
  | locate | getc | rows | cols | addr | rdsr => rfl
  | setmodeDisplayOn | setmodeDisplayOff | setmodeCursorOn | setmodeCursorOff | setmodeBlinkOn | setmodeBlinkOff =>
    exact eventsOf_displayMode _ _ s
  | setmodeLeftToRight | setmodeRightToLeft | setmodeAutoscrollOn | setmodeAutoscrollOff =>
    exact eventsOf_entryMode _ _ s
  | setmodeScrollLeft | setmodeScrollRight => exact eventsOf_scrollMode _ _ s

/-- Every operation completes, and appends the events of its transfers to the trace (R14, R16). -/
theorem exec_trace (i : Instr) (s : State) :
    ∃ t, exec i s = .next t ∧ t.trace = s.trace ++ frames s.timing (operationTransfers i s) :=
  ⟨_, exec_eq_plan i s, by rw [performAll_trace, eventsOf_plan]⟩

end Sys2Proof.Machine
end

section
/-! The number of bytes of every operation (O50). -/

namespace Sys2Proof.Machine

/-- Data bytes are seen one by one, each as a whole byte. -/
theorem filterMap_item_map_data (bitmap : List Byte) :
    (bitmap.map Transfer.data).filterMap Transfer.item = bitmap.map .data := by
  simp [List.filterMap_map, Function.comp_def, Transfer.item]

/-- Settles O50: what is seen is what was sent, and the transfers of each operation are counted. -/
theorem bytesPerOperation : Obligations.BytesPerOperation := by
  intro i s hwf he hnibbles
  obtain ⟨t, hexec, htrace⟩ := exec_trace i s
  refine ⟨t, _, hexec, htrace, ?_⟩
  rw [bytesFrom, byteSequence_frames _ _ _ _ he]
  cases i with
  | init =>
    rw [operationTransfers, initTransfers, hnibbles]
    cases s.hasRw <;> exact ⟨rfl, rfl⟩
  | putc ch =>
    rw [operationTransfers, operationBytes]
    split <;> exact ⟨rfl, rfl⟩
  | defglyph slot bitmap =>
    have hlength : bitmap.length = 8 := by simpa [Instr.wellFormed] using hwf
    rw [operationTransfers, operationBytes]
    split
    · rw [List.filterMap_cons, filterMap_item_map_data]
      simp [Transfer.item, List.countP_cons, List.countP_map, Function.comp_def, ByteItem.isByte, hlength]
    · exact ⟨rfl, rfl⟩
  | _ => exact ⟨rfl, rfl⟩

end Sys2Proof.Machine
end

section
/-! The byte-transfer engine (O20, O21) and the read/write line (O53). -/

namespace Sys2Proof.Machine

/-! ### Nibbles and transfers -/

/-- Settles O20: the two nibbles are the two slices, and as numbers the quotient and the remainder by 16. -/
theorem nibbleSplit : Obligations.NibbleSplit := by
  intro v
  refine ⟨upperNibble_eq v, lowerNibble_eq v, ?_⟩
  have hupper : (upperNibble v).toNat = v.toNat / 16 := by
    rw [upperNibble_eq, BitVec.extractLsb'_toNat, Nat.shiftRight_eq_div_pow]
    omega
  have hlower : (lowerNibble v).toNat = v.toNat % 16 := by
    rw [lowerNibble_eq, BitVec.extractLsb'_toNat, Nat.shiftRight_zero]
  rw [hupper, hlower, Nat.div_add_mod']

/-- Settles O21: each micro-operation by its own law, the durations by those of the frames. -/
theorem transferEngine : Obligations.TransferEngine := fun s n v =>
  ⟨performAll_writeNib s.timing n s, performAll_writeByte s.timing v s, performAll_writeCmd s.timing v s,
    performAll_writeData s.timing v s, duration_nibbleFrame s.timing n, duration_byteFrame s.timing v⟩

/-! ### The read/write line -/

/-- A write of `RW` shows in the trace exactly when a statement makes it and the line exists (R8, R37). -/
theorem setRW_mem_eventsOf_iff (hasRw : Bool) (as : List Act) (w : Bit) :
    Event.setRW w ∈ eventsOf hasRw as ↔ hasRw = true ∧ Act.emit (.setRW w) ∈ as := by
  induction as with
  | nil => simp [eventsOf]
  | cons a as ih =>
    cases a with
    | emit ev =>
      cases ev with
      | setRW v => cases hasRw <;> simp [eventsOf, ih]
      | _ => simp [eventsOf, ih]
    | _ => simp [eventsOf, ih]

/-- No statement adds or removes the line (R8, R37). -/
theorem performAll_rw_eq_none_iff (as : List Act) (s : State) : (performAll as s).rw = none ↔ s.rw = none := by
  have hline : (performAll as s).rw.isSome = s.rw.isSome := performAll_hasRw as s
  rw [← Option.not_isSome_iff_eq_none, hline, Option.not_isSome_iff_eq_none]

/-- A line at 0 is there after the operation too, and no operation writes anything but 0 to it (R37). -/
theorem performAll_plan_rw_zero (i : Instr) {s : State} (hrw : s.rw = some 0) :
    (performAll (plan i s) s).rw = some 0 := by
  cases hafter : (performAll (plan i s) s).rw with
  | none => simp [(performAll_rw_eq_none_iff _ s).1 hafter] at hrw
  | some w =>
    have hstart : ∀ v, s.rw = some v → v = 0 := fun v hv => Option.some.inj (hv.symm.trans hrw)
    have hplan : ∀ v, Act.emit (.setRW v) ∈ plan i s → v = 0 := fun v hv =>
      ((setRW_mem_plan_iff i s v).1 hv).2.2
    rw [performAll_rw_zero hstart hplan w hafter]

/-- Settles O53: a write of `RW` in the trace is one of the plan's, and only INIT's plan has one. -/
theorem readWriteLine : Obligations.ReadWriteLine := by
  intro i s
  refine ⟨_, _, exec_eq_plan i s, performAll_trace (plan i s) s, fun v hv => ?_,
    (performAll_rw_eq_none_iff _ s).2, performAll_plan_rw_zero i⟩
  obtain ⟨hline, hwrite⟩ := (setRW_mem_eventsOf_iff s.hasRw (plan i s) v).1 hv
  obtain ⟨hinit, -, hzero⟩ := (setRW_mem_plan_iff i s v).1 hwrite
  exact ⟨hinit, hzero, hline⟩

end Sys2Proof.Machine
end

section
/-! INIT and CLEAR as whole state changes (O25, O26, O28). -/

namespace Sys2Proof.Machine

/-! ### INIT -/

/-- INIT's whole effect (R130): what it reads of the state is the configuration, the line `RW`, the port, the sequencer and the
trace. -/
theorem performAll_planInit (s : State) :
    performAll (planInit s) s =
      { s with
        entryFlags := 0b10, dctrlFlags := 0b000, col := 0, row := 0, rs := 0, e := 0, d := 0x6
        rw := s.rw.map fun _ => 0, resp := 0, trace := s.trace ++ frames s.timing (initTransfers s) } := by
  rw [← eventsOf_planInit, ← performAll_trace]
  cases hline : s.rw <;>
    simp [planInit, State.hasRw, hline, performAll_append, performAll_writeCmd, performAll_initNibblePhase, perform, emit,
      cmdEntryMode]

/-- Settles O25: INIT's effect writes every register that differs, and its transfers read none of them. -/
theorem initForgetsTrackedState : Obligations.InitForgetsTrackedState := by
  intro s entry dctrl col row rs e d resp
  rw [exec_eq_plan, exec_eq_plan]
  simp only [plan, performAll_planInit]
  rfl

/-! ### CLEAR -/

/-- The pin events of CLEAR (R133). -/
def clearEvents (t : Timing) : List Event := cmdFrame t 0x01 ++ [.dly t.tLong]

/-- CLEAR's whole effect (R133). -/
theorem exec_clear (s : State) :
    exec .clear s = .next
      { s with
        col := 0, row := 0, rs := 0, e := 0, d := 0x1, resp := 0, trace := s.trace ++ clearEvents s.timing } := by
  rw [exec_eq_plan]
  simp [plan, planClear, performAll_append, performAll_writeCmd, perform, cmdClearDisplay, clearEvents]

/-- From a resting enable line CLEAR is seen as the one command 0x01 (R14, R133). -/
theorem bytesFrom_clearEvents {s : State} (he : s.e = 0) : bytesFrom s (clearEvents s.timing) = [.cmd 0x01] :=
  byteSequence_frames s.timing [.cmd 0x01, .wait s.timing.tLong] s.pinState false he

/-- A command frame and the long wait (R133). -/
theorem duration_clearEvents (t : Timing) : duration (clearEvents t) = 6 * t.tPulse + t.tSettle + t.tLong := by
  rw [clearEvents, duration_append, duration_cmdFrame]
  rfl

/-- Settles O26: CLEAR's effect, what is seen of its events, and how long they last. -/
theorem clearResult : Obligations.ClearResult := fun s =>
  ⟨exec_clear s, bytesFrom_clearEvents, duration_clearEvents s.timing⟩

/-- Settles O28: the second CLEAR starts from the first one's result, with the same timing parameters, so it repeats the
events. -/
theorem clearTwice : Obligations.ClearTwice := by
  intro s
  refine ⟨_, _, exec_clear s, exec_clear _, rfl, rfl, rfl, rfl, rfl, rfl, clearEvents s.timing, rfl, rfl, ?_⟩
  simp [clearEvents]

end Sys2Proof.Machine
end

section
/-! LOCATE and PUTC as whole state changes (O29, O31), and LOCATE read back (O49). -/

namespace Sys2Proof.Machine

/-! ### LOCATE -/

/-- LOCATE's whole effect (R150). -/
theorem exec_locate (s : State) (col row : Byte) :
    exec (.locate col row) s = .next { s with col := col, row := row, resp := 0 } := rfl

/-- Settles O29: the whole effect of LOCATE. -/
theorem locateResult : Obligations.LocateResult := exec_locate

/-- RDSR's whole effect (R203). -/
theorem exec_rdsr (s : State) (reg : Byte) :
    exec (.rdsr reg) s = .next { s with resp := (statusRegister reg s).setWidth 32 } := rfl

/-- Settles O49: status registers 2 and 3 are `COL` and `ROW`, and the read between changes neither (R31). -/
theorem locateThenRead : Obligations.LocateThenRead := fun s c r =>
  ⟨_, _, _, exec_locate s c r, exec_rdsr _ 2, exec_rdsr _ 3, rfl, rfl, rfl⟩

/-! ### The positioned write -/

/-- The pin events of a write at a place (R151). -/
def positionedEvents (s : State) (col row glyph : Byte) : List Event :=
  cmdFrame s.timing (getAddress s.ptype col row) ++ dataFrame s.timing glyph

/-- They are the frames of the write's transfers. -/
theorem positionedEvents_eq_frames (s : State) (col row glyph : Byte) :
    positionedEvents s col row glyph = frames s.timing (positionedTransfers s col row glyph) := by
  simp [positionedEvents, positionedTransfers, Transfer.frame]

/-- From a resting enable line a positioned write is seen as the address command and the data byte (R14, R151). -/
theorem bytesFrom_positionedEvents {s : State} (col row glyph : Byte) (he : s.e = 0) :
    bytesFrom s (positionedEvents s col row glyph) = [.cmd (getAddress s.ptype col row), .data glyph] := by
  rw [positionedEvents_eq_frames, bytesFrom, byteSequence_frames _ _ _ _ he]
  rfl

/-- A positioned write lasts two byte frames (R151, R250). -/
theorem duration_positionedEvents (s : State) (col row glyph : Byte) :
    duration (positionedEvents s col row glyph) = 2 * byteTime s.timing := by
  rw [positionedEvents, duration_append, duration_cmdFrame, duration_dataFrame, two_mul]

/-! ### PUTC -/

/-- The eight-bit column of R154's `COL + 1`. -/
theorem col_add_one_eq (col : Byte) : col + 1 = BitVec.ofNat 8 (col.toNat + 1) := by
  simp [BitVec.ofNat_add]

/-- PUTC of a newline: the next row, and no pin event (R155). -/
theorem exec_putc_newline {ch : Byte} (hnl : ch = 0x0A) (s : State) :
    exec (.putc ch) s = .next { s with col := 0, row := nextRow s.ptype s.row, resp := 0 } := by
  rw [exec_eq_plan, plan, planPutc_newline hnl, performAll_append, performAll_newRow]
  rfl

/-- PUTC of any other byte: the positioned write at the tracked place, the column advance, the response (R153). -/
theorem exec_putc_character {ch : Byte} (hnl : ch ≠ 0x0A) (s : State) :
    exec (.putc ch) s = .next (perform (.respond 0) (performAll (advanceColumn s)
      { s with
        rs := 1, e := 0, d := ch.extractLsb' 0 4
        trace := s.trace ++ positionedEvents s s.col s.row ch })) := by
  rw [exec_eq_plan, plan, planPutc_character hnl, performAll_append, performAll_append, performAll_positionedWrite]
  rfl

/-- Settles O31: by the newline test, then by whether the column advance reaches `columns()`. -/
theorem putcResult : Obligations.PutcResult := by
  intro s ch row' evs
  have hrow : nextRow s.ptype s.row = row' := nextRow_eq s.ptype s.row
  refine ⟨fun hnl => ?_, fun hnl hwrap => ?_, fun hnl hstay => ?_,
    bytesFrom_positionedEvents s.col s.row ch, duration_positionedEvents s s.col s.row ch⟩
  · rw [exec_putc_newline hnl, hrow]
  · rw [exec_putc_character hnl, performAll_advanceColumn, if_pos hwrap, hrow]
    rfl
  · rw [exec_putc_character hnl, performAll_advanceColumn, if_neg (Nat.not_le.2 hstay), col_add_one_eq]
    rfl

end Sys2Proof.Machine
end

section
/-! SETMODE: the display-control, entry-mode and scroll modes as whole state changes (O35 to O37), the bounds on the flag registers
(O39), and two modes in a row (O40). -/

namespace Sys2Proof.Machine

/-! ### Each mode -/

/-- Settles O35: every mode is the common shape of R170, with its own flag set or cleared in `DCTRL`. -/
theorem displayModeResults : Obligations.DisplayModeResults := by
  intro s
  obtain ⟨-, -, -, -, setD, clearD, setC, clearC, setB, clearB⟩ := flags_implemented s
  exact ⟨⟨_, exec_eq_plan .setmodeDisplayOn s, performAll_displayMode _ s setD⟩,
    ⟨_, exec_eq_plan .setmodeDisplayOff s, performAll_displayMode _ s clearD⟩,
    ⟨_, exec_eq_plan .setmodeCursorOn s, performAll_displayMode _ s setC⟩,
    ⟨_, exec_eq_plan .setmodeCursorOff s, performAll_displayMode _ s clearC⟩,
    ⟨_, exec_eq_plan .setmodeBlinkOn s, performAll_displayMode _ s setB⟩,
    ⟨_, exec_eq_plan .setmodeBlinkOff s, performAll_displayMode _ s clearB⟩⟩

/-- Settles O36: every mode is the common shape of R170, with its own flag set or cleared in `ENTRY`. -/
theorem entryModeResults : Obligations.EntryModeResults := by
  intro s
  obtain ⟨setID, clearID, setS, clearS, -⟩ := flags_implemented s
  exact ⟨⟨_, exec_eq_plan .setmodeLeftToRight s, performAll_entryMode _ s setID⟩,
    ⟨_, exec_eq_plan .setmodeRightToLeft s, performAll_entryMode _ s clearID⟩,
    ⟨_, exec_eq_plan .setmodeAutoscrollOn s, performAll_entryMode _ s setS⟩,
    ⟨_, exec_eq_plan .setmodeAutoscrollOff s, performAll_entryMode _ s clearS⟩⟩

/-- Settles O37: both modes are the common shape of R177, with the command bytes 0x18 and 0x1C. -/
theorem scrollModeResults : Obligations.ScrollModeResults := fun s =>
  ⟨(exec_eq_plan .setmodeScrollLeft s).trans (congrArg _ (performAll_scrollMode cmdShiftLeft s)),
    (exec_eq_plan .setmodeScrollRight s).trans (congrArg _ (performAll_scrollMode cmdShiftRight s))⟩

/-! ### The flag registers as read -/

/-- `ENTRY` has two implemented bits (R22). -/
theorem entry_toNat_le (s : State) : s.entry.toNat ≤ 0x03 := by
  have hflags : s.entryFlags.toNat < 2 ^ 2 := s.entryFlags.isLt
  rw [State.entry, BitVec.toNat_setWidth_of_le (by decide)]
  omega

/-- `DCTRL` has three implemented bits (R25). -/
theorem dctrl_toNat_le (s : State) : s.dctrl.toNat ≤ 0x07 := by
  have hflags : s.dctrlFlags.toNat < 2 ^ 3 := s.dctrlFlags.isLt
  rw [State.dctrl, BitVec.toNat_setWidth_of_le (by decide)]
  omega

/-- RDSR responds with the register's value, zero-extended (R203). -/
theorem statusResponse_toNat (reg : Byte) (s : State) :
    ((statusRegister reg s).setWidth 32).toNat = (statusRegister reg s).toNat :=
  BitVec.toNat_setWidth_of_le (by decide)

/-- Settles O39: status registers 0 and 1 are `ENTRY` and `DCTRL` (R31), and RDSR responds with their values. -/
theorem unimplementedFlagBitsReadZero : Obligations.UnimplementedFlagBitsReadZero := fun s =>
  ⟨entry_toNat_le s, dctrl_toNat_le s,
    ⟨_, exec_rdsr s 0, (statusResponse_toNat 0 s).trans_le (entry_toNat_le s)⟩,
    ⟨_, exec_rdsr s 1, (statusResponse_toNat 1 s).trans_le (dctrl_toNat_le s)⟩⟩

/-! ### Two modes in a row -/

theorem DisplayModeResult.entry {flags : Byte} {s t : State} (h : DisplayModeResult flags s t) : t.entry = s.entry :=
  congrArg Tracked.entry h.tracked

theorem DisplayModeResult.timing {flags : Byte} {s t : State} (h : DisplayModeResult flags s t) :
    t.timing = s.timing := by
  rw [h.2]

/-- The command a display-control mode sends carries `DCTRL` as the mode leaves it (R170). -/
theorem DisplayModeResult.trace {flags : Byte} {s t : State} (h : DisplayModeResult flags s t) :
    t.trace = s.trace ++ cmdFrame s.timing (0x08 ||| t.dctrl) := by
  obtain ⟨hflags, hrest⟩ := h
  rw [hflags, hrest]

/-- Settles O40: the second mode starts from the `DCTRL` the first one left, and each of the two touches its own flag only. -/
theorem blinkOnThenCursorOff : Obligations.BlinkOnThenCursorOff := by
  intro s
  obtain ⟨-, -, -, -, ⟨t, hblink, hst⟩, -⟩ := displayModeResults s
  obtain ⟨-, -, -, ⟨u, hcursor, htu⟩, -, -⟩ := displayModeResults t
  have hdctrl : u.dctrl = clearFlag bitC (setFlag bitB s.dctrl) := htu.1.trans (congrArg (clearFlag bitC) hst.1)
  refine ⟨t, u, hblink, hcursor, ?blink, ?cursor, ?display, htu.entry.trans hst.entry, ?trace⟩
  case blink => simp [hdctrl, clearFlag, setFlag, bitC, bitB]
  case cursor => simp [hdctrl, clearFlag, bitC]
  case display => simp (disch := decide) [hdctrl, clearFlag_getElem, setFlag_getElem]
  case trace => rw [htu.trace, hst.trace, hst.timing]

end Sys2Proof.Machine
end

section
/-! DEFGLYPH as a whole state change, accepted and rejected (O41, O42). -/

namespace Sys2Proof.Machine

/-! ### An accepted slot -/

/-- The pin events of an accepted DEFGLYPH (R190). -/
def glyphEvents (t : Timing) (slot : Byte) (bitmap : List Byte) : List Event :=
  cmdFrame t (BitVec.ofNat 8 (0x40 + 8 * slot.toNat)) ++ bitmapFrames t bitmap

/-- They are the frames of the operation's transfers. -/
theorem glyphEvents_eq_frames {slot : Byte} (hslot : slot.toNat ≤ 7) (bitmap : List Byte) (s : State) :
    glyphEvents s.timing slot bitmap = frames s.timing (operationTransfers (.defglyph slot bitmap) s) := by
  rw [operationTransfers, if_pos hslot, cmdCgramAddress_eq slot hslot]
  simp [glyphEvents, frames, bitmapFrames, List.flatMap_map, Transfer.frame]

/-- The whole effect of DEFGLYPH with a slot up to 7 and some bitmap byte (R190). -/
theorem exec_defglyph_accepted {slot : Byte} (hslot : slot.toNat ≤ 7) {bitmap : List Byte} (hne : bitmap ≠ [])
    (s : State) :
    exec (.defglyph slot bitmap) s = .next
      { s with
        rs := 1, e := 0, d := (bitmap.getLastD 0).extractLsb' 0 4, resp := 0
        trace := s.trace ++ glyphEvents s.timing slot bitmap } := by
  obtain ⟨b, bitmap, rfl⟩ := List.exists_cons_of_ne_nil hne
  rw [exec_eq_plan, plan, planDefglyph, if_neg (Nat.not_lt.2 hslot), cmdCgramAddress_eq slot hslot,
    performAll_append, performAll_append, performAll_writeCmd, performAll_writeBitmap, List.append_assoc]
  rfl

/-- From a resting enable line an accepted DEFGLYPH is seen as the slot's command and the bitmap bytes (R14, R190). -/
theorem bytesFrom_glyphEvents {slot : Byte} (hslot : slot.toNat ≤ 7) (bitmap : List Byte) {s : State} (he : s.e = 0) :
    bytesFrom s (glyphEvents s.timing slot bitmap) =
      .cmd (BitVec.ofNat 8 (0x40 + 8 * slot.toNat)) :: bitmap.map .data := by
  rw [glyphEvents_eq_frames hslot, bytesFrom, byteSequence_frames _ _ _ _ he, operationTransfers, if_pos hslot,
    cmdCgramAddress_eq slot hslot, ← filterMap_item_map_data]
  rfl

/-- Settles O41: the accepted effect, and what is seen of its events. -/
theorem defglyphResult : Obligations.DefglyphResult := fun s _ bitmap hlength hslot =>
  ⟨exec_defglyph_accepted hslot (List.ne_nil_of_length_eq_add_one hlength) s, bytesFrom_glyphEvents hslot bitmap⟩

/-! ### A rejected slot -/

/-- The whole effect of DEFGLYPH with a slot above 7 (R191). -/
theorem exec_defglyph_rejected {slot : Byte} (hslot : 7 < slot.toNat) (bitmap : List Byte) (s : State) :
    exec (.defglyph slot bitmap) s = .next { s with resp := 0 } := by
  rw [exec_eq_plan, plan, planDefglyph, if_pos hslot]
  rfl

/-- Settles O42: whatever bitmap the payload words carry, the decoder takes all three words and the slot is rejected. -/
theorem defglyphRejectsBadSlot : Obligations.DefglyphRejectsBadSlot := by
  intro s slot bitmap hslot
  refine ⟨exec_defglyph_rejected hslot bitmap s, fun w p0 p1 rest hidle hport hop ha => ?_⟩
  have hdecode : decode s.port = .operation (.defglyph slot (payloadBytes p0 ++ payloadBytes p1)) rest := by
    rw [hport, decode_glyph p0 p1 rest hop, aField, ha]
  rw [step_of_operation hidle hdecode, exec_defglyph_rejected hslot]

end Sys2Proof.Machine
end

section
/-! A data byte is sent only after an address command (O56). -/

namespace Sys2Proof.Machine

/-- What is seen of an operation that starts with `E` at 0 is what its transfers send (R14). -/
theorem bytesFrom_exec {i : Instr} {s t : State} {evs : List Event} (he : s.e = 0) (hexec : exec i s = .next t)
    (htrace : t.trace = s.trace ++ evs) : bytesFrom s evs = (operationTransfers i s).filterMap Transfer.item := by
  obtain ⟨u, hu, hframes⟩ := exec_trace i s
  obtain rfl : t = u := by simpa [hexec] using hu
  have hevs : evs = frames s.timing (operationTransfers i s) := List.append_cancel_left (htrace.symm.trans hframes)
  rw [hevs, bytesFrom, byteSequence_frames _ _ _ _ he]

/-- A data byte is seen only where one was sent. -/
theorem data_mem_filterMap_item {ts : List Transfer} {v : Byte} (h : ByteItem.data v ∈ ts.filterMap Transfer.item) :
    Transfer.data v ∈ ts := by
  obtain ⟨x, hx, hitem⟩ := List.mem_filterMap.1 h
  cases x with
  | data w =>
    obtain rfl : w = v := by simpa [Transfer.item] using hitem
    exact hx
  | _ => simp [Transfer.item] at hitem

/-- With the column on the panel a translated address has the set-DDRAM-address bit, for any row (R57, R58). -/
theorem le_getAddress_toNat {p : PanelType} {c : Byte} (hc : c.toNat < columns p) (r : Byte) :
    0x80 ≤ (getAddress p c r).toNat := by
  obtain ⟨-, haddr⟩ | ⟨hr, -⟩ := getAddress_cases p c r
  · rw [haddr]
    decide
  · rw [getAddress_toNat hc hr]
    omega

/-- A set-CGRAM-address command has its command bit (R97). -/
theorem le_cmdCgramAddress_toNat {slot : Byte} (hslot : slot.toNat ≤ 7) :
    0x40 ≤ (cmdCgramAddress (slot &&& 0x7)).toNat := by
  rw [cmdCgramAddress_eq slot hslot, BitVec.toNat_ofNat]
  omega

theorem data_not_mem_initTransfers (v : Byte) (s : State) : Transfer.data v ∉ initTransfers s := by
  cases hfourth : s.initNibbles.fourth <;> simp [initTransfers, hfourth]

/-- The transfers hold no data byte, or begin with a set-address command. -/
def DataAfterAddress (ts : List Transfer) : Prop :=
  (∀ v, Transfer.data v ∉ ts) ∨ ∃ v rest, ts = .cmd v :: rest ∧ 0x40 ≤ v.toNat

/-- A positioned write at a column on the panel begins with the address command (R151). -/
theorem positionedTransfers_dataAfterAddress (s : State) {col : Byte} (hcol : col.toNat < columns s.ptype)
    (row glyph : Byte) : DataAfterAddress (positionedTransfers s col row glyph) := by
  have haddr := le_getAddress_toNat hcol row
  exact .inr ⟨_, _, rfl, by omega⟩

/-- Only the positioned writes and DEFGLYPH send data, each after its address command (R193). -/
theorem operationTransfers_dataAfterAddress {i : Instr} {s : State} (hcol : ColumnInRange i s) :
    DataAfterAddress (operationTransfers i s) := by
  obtain ⟨hputcat, hputc⟩ := hcol
  cases i with
  | putcat col row glyph => exact positionedTransfers_dataAfterAddress s (hputcat _ _ _ rfl) row glyph
  | putc ch =>
    rw [operationTransfers]
    split
    · exact .inl fun _ => List.not_mem_nil
    · exact positionedTransfers_dataAfterAddress s (hputc _ rfl) s.row ch
  | defglyph slot bitmap =>
    rw [operationTransfers]
    split
    · exact .inr ⟨_, _, rfl, le_cmdCgramAddress_toNat ‹_›⟩
    · exact .inl fun _ => List.not_mem_nil
  | init => exact .inl fun v => data_not_mem_initTransfers v s
  | _ => exact .inl fun v => by simp [operationTransfers]

/-- Settles O56: what is seen is what the transfers send, and these hold no data or begin with an address command. -/
theorem dataFollowsAddress : Obligations.DataFollowsAddress := by
  intro i s t evs he hcol hexec htrace
  rw [bytesFrom_exec he hexec htrace]
  obtain hnone | ⟨v, rest, hts, hv⟩ := operationTransfers_dataAfterAddress hcol
  · exact .inl fun v hmem => hnone v (data_mem_filterMap_item hmem)
  · exact .inr ⟨v, rest.filterMap Transfer.item, by rw [hts]; rfl, hv⟩

end Sys2Proof.Machine
end

section
/-! The queries as whole state changes: the geometry, the translation, the status registers (O46 to O48). -/

namespace Sys2Proof.Machine

/-! ### ROWS, COLS and ADDR -/

/-- ROWS's whole effect (R200). -/
theorem exec_rows (s : State) : exec .rows s = .next { s with resp := BitVec.ofNat 32 (rows s.ptype) } := rfl

/-- COLS's whole effect (R201). -/
theorem exec_cols (s : State) : exec .cols s = .next { s with resp := BitVec.ofNat 32 (columns s.ptype) } := rfl

/-- ADDR's whole effect (R202). -/
theorem exec_addr (s : State) (col row : Byte) :
    exec (.addr col row) s = .next { s with resp := (getAddress s.ptype col row).setWidth 32 } := rfl

/-- Settles O46: the responses are the panel's two entries of the geometry table (R54). -/
theorem geometryQueries : Obligations.GeometryQueries := by
  intro s
  rw [exec_rows, exec_cols]
  cases s.ptype <;> exact ⟨rfl, rfl⟩

/-- Settles O47: PUTCAT's transfers begin with the command that ADDR responds. -/
theorem addrResult : Obligations.AddrResult := by
  intro s col row glyph
  obtain ⟨t, hexec, htrace⟩ := exec_trace (.putcat col row glyph) s
  refine ⟨exec_addr s col row, t, hexec, ?_⟩
  rw [htrace, operationTransfers, ← positionedEvents_eq_frames, positionedEvents, List.append_assoc]

/-! ### RDSR -/

/-- `ENTRY` reads its two flags below six zero bits (R22). -/
theorem entry_eq_append (s : State) : s.entry = (0 : BitVec 6) ++ s.entryFlags :=
  BitVec.setWidth_eq_append (by decide)

/-- `DCTRL` reads its three flags below five zero bits (R25). -/
theorem dctrl_eq_append (s : State) : s.dctrl = (0 : BitVec 5) ++ s.dctrlFlags :=
  BitVec.setWidth_eq_append (by decide)

/-- `PINS` by the weights of its fields (R31). -/
theorem pins_eq_ofNat (s : State) :
    s.pins = BitVec.ofNat 8 (64 * (s.rw.getD 0).toNat + 32 * s.rs.toNat + 16 * s.e.toNat + s.d.toNat) := by
  unfold State.pins
  generalize s.rw.getD 0 = rw
  generalize s.rs = rs
  generalize s.e = e
  generalize s.d = d
  revert rw rs e d
  decide

/-- The status registers by their numbers, 6 to 255 reserved (R31). -/
theorem statusRegister_eq_ite (n : Byte) (s : State) :
    statusRegister n s =
      if n = 0 then s.entry
      else if n = 1 then s.dctrl
      else if n = 2 then s.col
      else if n = 3 then s.row
      else if n = 4 then (strapCode s.ptype).setWidth 8
      else if n = 5 then s.pins
      else 0 := by
  unfold statusRegister
  split
  case h_7 hentry hdctrl hcol hrow hptype hpins =>
    exact (((((if_neg hentry).trans (if_neg hdctrl)).trans (if_neg hcol)).trans (if_neg hrow)).trans
      (if_neg hptype)).trans (if_neg hpins) |>.symm
  all_goals rfl

/-- Settles O48: RDSR responds with the status register, each written out by its fields. -/
theorem rdsrResult : Obligations.RdsrResult := by
  intro s n v
  have hvalue : statusRegister n s = v := by
    rw [statusRegister_eq_ite, entry_eq_append, dctrl_eq_append, pins_eq_ofNat]
    unfold v
    cases s.ptype <;> rfl
  rw [exec_rdsr, hvalue]

end Sys2Proof.Machine
end

section
/-! The block raises nothing: an idle block waits, every operation completes, and only a reserved word is refused (O8, O12, O13). -/

namespace Sys2Proof.Machine

/-! ### What the decoder refuses -/

/-- The mode numbers from 12, and only these, are no mode (R85, R88). -/
theorem decodeMode_eq_none_iff (a : Byte) : decodeMode a = none ↔ 12 ≤ a.toNat := by
  revert a
  decide

/-- A first word that is neither a DEFGLYPH's nor in the table of one-word operations is reserved (R85, R88). -/
theorem reserved_of_decodeOne_eq_none {w : Word} (h6 : opField w ≠ 0x06)
    (h : decodeOne (opField w) (aField w) (bField w) (cField w) = none) : Reserved w := by
  change (0x08 ≤ (opField w).toNat ∧ (opField w).toNat ≤ 0x0F) ∨ (0x11 ≤ (opField w).toNat ∧ (opField w).toNat ≤ 0x1F) ∨
    0x24 ≤ (opField w).toNat ∨ ((opField w).toNat = 0x10 ∧ 12 ≤ (aField w).toNat)
  generalize opField w = op at h6 h ⊢
  unfold decodeOne at h
  split at h
  case h_8 => exact .inr (.inr (.inr ⟨rfl, (decodeMode_eq_none_iff _).1 h⟩))
  case h_13 =>
    simp only [imp_false] at *
    bv_omega
  all_goals cases h

/-- The decoder calls only the next word of the stream reserved, and only when R88 does. -/
theorem decode_eq_reserved {ws : List Word} {w : Word} (h : decode ws = .reserved w) :
    ∃ rest, ws = w :: rest ∧ Reserved w := by
  unfold decode at h
  split at h
  · cases h
  · rename_i v rest
    split at h
    · unfold decodeGlyph at h
      split at h <;> cases h
    · rename_i h6
      split at h
      · cases h
      · rename_i hnone
        cases h
        exact ⟨rest, rfl, reserved_of_decodeOne_eq_none h6 hnone⟩

/-! ### The steps of an idle block that run no operation -/

/-- An idle block with no whole operation presented stays as it is (R226). -/
theorem step_of_incomplete {s : State} (hidle : s.Idle) (h : decode s.port = .incomplete) : step s = .next s := by
  simp [step, show s.pending = [] from hidle, h]

/-- An idle block refuses what the decoder calls reserved (R88, U5). -/
theorem step_of_reserved {s : State} {w : Word} (hidle : s.Idle) (h : decode s.port = .reserved w) :
    step s = .refused (.reservedWord w) := by
  simp [step, show s.pending = [] from hidle, h]

/-- Settles O8: in both cases the words presented are no whole operation. -/
theorem idleBlockWaits : Obligations.IdleBlockWaits := by
  intro s hidle hport
  refine step_of_incomplete hidle ?_
  obtain hport | ⟨w, rest, hport, h6, hshort⟩ := hport
  case inl => rw [hport, decode]
  case inr =>
    rw [hport]
    exact decode_glyph_short rest h6 hshort

/-- Settles O12: an operation is its statements performed, and no statement touches the sequencer, the port or the
configuration. -/
theorem everyOperationCompletes : Obligations.EveryOperationCompletes := fun i s =>
  ⟨_, exec_eq_plan i s, performAll_pending _ s, performAll_port _ s, performAll_sameConfig _ s⟩

/-- Settles O13: a busy block performs its next statement, and an idle one does what the decoder says of its port. -/
theorem stepStopsOnlyOnReservedWord : Obligations.StepStopsOnlyOnReservedWord := by
  intro s
  cases hpending : s.pending with
  | cons a rest => exact .inl ⟨_, step_of_pending hpending⟩
  | nil =>
    cases hdecode : decode s.port with
    | operation i rest => exact .inl ⟨_, (step_of_operation hpending hdecode).trans (exec_eq_plan i _)⟩
    | incomplete => exact .inl ⟨s, step_of_incomplete hpending hdecode⟩
    | reserved w =>
      obtain ⟨rest, hport, hreserved⟩ := decode_eq_reserved hdecode
      exact .inr ⟨w, rest, hpending, hport, hreserved, step_of_reserved hpending hdecode⟩

end Sys2Proof.Machine
end

section
/-! The number of events of every operation (O51). -/

namespace Sys2Proof.Machine

/-- The number of events of a transfer (R89, R90). -/
def Transfer.eventCount : Transfer → Nat
  | .writeMode | .selectCommand | .wait _ => 1
  | .nibble _ _ => 8
  | .cmd _ | .data _ => 16

theorem length_frame (t : Timing) (x : Transfer) : (x.frame t).length = x.eventCount := by
  cases x <;> rfl

/-- Events are counted transfer by transfer. -/
theorem length_frames (t : Timing) (ts : List Transfer) :
    (frames t ts).length = (ts.map Transfer.eventCount).sum := by
  simp [frames, List.length_flatMap, length_frame]

/-- INIT with a fourth nibble: 99 events, and the write of the read/write line where it exists (R130, R252). -/
theorem length_frames_initTransfers {s : State} (hfourth : s.initNibbles.fourth.isSome = true) :
    (frames s.timing (initTransfers s)).length = if s.hasRw then 100 else 99 := by
  obtain ⟨n, hn⟩ := Option.isSome_iff_exists.1 hfourth
  rw [length_frames, initTransfers, hn]
  cases s.hasRw <;> rfl

/-- An accepted DEFGLYPH: nine frames of sixteen events (R190, R252). -/
theorem length_frames_defglyph {slot : Byte} (hslot : slot.toNat ≤ 7) {bitmap : List Byte}
    (hlength : bitmap.length = 8) (s : State) :
    (frames s.timing (operationTransfers (.defglyph slot bitmap) s)).length = 144 := by
  rw [operationTransfers, if_pos hslot, length_frames]
  simp [Function.comp_def, Transfer.eventCount, hlength]

/-- Every other operation sends two bytes, or one and a wait, or one, or nothing (R252). -/
theorem length_frames_le {i : Instr} (hinit : i ≠ .init)
    (hglyph : ∀ slot bitmap, i = .defglyph slot bitmap → 7 < slot.toNat) (s : State) :
    (frames s.timing (operationTransfers i s)).length ≤ 32 := by
  rw [length_frames]
  cases i with
  | init => exact absurd rfl hinit
  | defglyph slot bitmap =>
    rw [operationTransfers, if_neg (Nat.not_le.2 (hglyph slot bitmap rfl))]
    decide
  | putc ch =>
    rw [operationTransfers]
    split <;> simp [positionedTransfers, Transfer.eventCount]
  | _ => simp [operationTransfers, positionedTransfers, Transfer.eventCount]

/-- Settles O51: the events are those of the operation's transfers, counted for INIT, for an accepted DEFGLYPH, and for
the rest. -/
theorem eventsPerOperation : Obligations.EventsPerOperation := by
  intro i s hwf hfourth
  obtain ⟨t, hexec, htrace⟩ := exec_trace i s
  refine ⟨t, _, hexec, htrace, ?init, ?accepted, ?rejected, ?other⟩
  case init =>
    rintro rfl
    exact length_frames_initTransfers hfourth
  case accepted =>
    rintro slot bitmap rfl hslot
    exact length_frames_defglyph hslot (by simpa [Instr.wellFormed] using hwf) s
  case rejected =>
    rintro slot bitmap rfl hslot
    exact length_frames_le (by simp) (by rintro _ _ ⟨rfl, rfl⟩; exact hslot) s
  case other => exact fun hinit hglyph => length_frames_le hinit (fun slot bitmap h => absurd h (hglyph slot bitmap)) s

end Sys2Proof.Machine
end

section
/-! The slow command bytes come only from INIT, CLEAR and HOME (O54). -/

namespace Sys2Proof.Machine

/-- A command byte is seen only where one was sent. -/
theorem cmd_mem_filterMap_item {ts : List Transfer} {v : Byte} (h : ByteItem.cmd v ∈ ts.filterMap Transfer.item) :
    Transfer.cmd v ∈ ts := by
  obtain ⟨x, hx, hitem⟩ := List.mem_filterMap.1 h
  cases x with
  | cmd w =>
    obtain rfl : w = v := by simpa [Transfer.item] using hitem
    exact hx
  | _ => simp [Transfer.item] at hitem

/-- An entry-mode-set command has its command bit (R92). -/
theorem le_cmdEntryMode_toNat (flags : Byte) : 0x04 ≤ (cmdEntryMode flags).toNat := by
  rw [cmdEntryMode, BitVec.toNat_or]
  exact Nat.left_le_or

/-- A display-control command has its command bit (R93). -/
theorem le_cmdDisplayControl_toNat (flags : Byte) : 0x08 ≤ (cmdDisplayControl flags).toNat := by
  rw [cmdDisplayControl, BitVec.toNat_or]
  exact Nat.left_le_or

/-- Every command byte of these transfers is above clear-display and return-home (R94). -/
def CommandsAreQuick (ts : List Transfer) : Prop := ∀ v, Transfer.cmd v ∈ ts → 0x04 ≤ v.toNat

theorem commandsAreQuick_nil : CommandsAreQuick [] := fun _ h => absurd h List.not_mem_nil

/-- Data bytes after a command add none to it. -/
theorem commandsAreQuick_cmd_data {v : Byte} (hv : 0x04 ≤ v.toNat) (bytes : List Byte) :
    CommandsAreQuick (.cmd v :: bytes.map .data) := by
  intro w hw
  obtain rfl : w = v := by simpa using hw
  exact hv

/-- A positioned write at a column on the panel sends one command, its address (R151). -/
theorem positionedTransfers_commandsAreQuick (s : State) {col : Byte} (hcol : col.toNat < columns s.ptype)
    (row glyph : Byte) : CommandsAreQuick (positionedTransfers s col row glyph) :=
  commandsAreQuick_cmd_data (le_trans (by decide) (le_getAddress_toNat hcol row)) [glyph]

/-- An operation other than INIT, CLEAR and HOME sends at most one command, which has a higher command bit (R241). -/
theorem operationTransfers_commandsAreQuick {i : Instr} {s : State} (hcol : ColumnInRange i s)
    (hinit : i ≠ .init) (hclear : i ≠ .clear) (hhome : i ≠ .home) : CommandsAreQuick (operationTransfers i s) := by
  obtain ⟨hputcat, hputc⟩ := hcol
  cases i with
  | init => exact absurd rfl hinit
  | clear => exact absurd rfl hclear
  | home => exact absurd rfl hhome
  | putcat col row glyph => exact positionedTransfers_commandsAreQuick s (hputcat _ _ _ rfl) row glyph
  | putc ch =>
    rw [operationTransfers]
    split
    · exact commandsAreQuick_nil
    · exact positionedTransfers_commandsAreQuick s (hputc _ rfl) s.row ch
  | defglyph slot bitmap =>
    rw [operationTransfers]
    split
    · exact commandsAreQuick_cmd_data (le_trans (by decide) (le_cmdCgramAddress_toNat ‹_›)) bitmap
    · exact commandsAreQuick_nil
  | setmodeDisplayOn | setmodeDisplayOff | setmodeCursorOn | setmodeCursorOff | setmodeBlinkOn | setmodeBlinkOff =>
    exact commandsAreQuick_cmd_data (le_trans (by decide) (le_cmdDisplayControl_toNat _)) []
  | setmodeLeftToRight | setmodeRightToLeft | setmodeAutoscrollOn | setmodeAutoscrollOff =>
    exact commandsAreQuick_cmd_data (le_cmdEntryMode_toNat _) []
  | setmodeScrollLeft | setmodeScrollRight => exact commandsAreQuick_cmd_data (by decide) []
  | locate | getc | rows | cols | addr | rdsr => exact commandsAreQuick_nil

/-- Settles O54: a command that is seen was sent, and the other operations send commands from 0x04 on only. -/
theorem slowCommandsComeOnlyFromSlowOperations : Obligations.SlowCommandsComeOnlyFromSlowOperations := by
  intro i s t evs v he hcol hexec htrace hmem hslow
  rw [bytesFrom_exec he hexec htrace] at hmem
  by_contra hnone
  obtain ⟨hinit, hclear, hhome⟩ : i ≠ .init ∧ i ≠ .clear ∧ i ≠ .home := by simpa [not_or] using hnone
  have hquick := operationTransfers_commandsAreQuick hcol hinit hclear hhome v (cmd_mem_filterMap_item hmem)
  obtain rfl | rfl := hslow <;> exact absurd hquick (by decide)

end Sys2Proof.Machine
end

section
/-! The encoding: the table read forwards and backwards (O2, O3, O4, O1), and the words outside it (O5, O6). -/

namespace Sys2Proof.Machine

/-! ### Encoding and decoding -/

/-- A one-word operation written out by its four fields (R81, R85). -/
theorem decode_opWord {op a b c : Byte} {i : Instr} (rest : List Word) (h6 : op ≠ 0x06)
    (h : decodeOne op a b c = some i) : decode (opWord op a b c :: rest) = .operation i rest :=
  decode_of_decodeOne rest (by simpa using h6) (by simpa using h)

/-- The eight bytes of a glyph fill its two payload words (R84). -/
theorem payloadBytes_of_bitmap {bitmap : List Byte} (h : bitmap.length = 8) :
    payloadBytes (payloadWord bitmap 0) ++ payloadBytes (payloadWord bitmap 4) = bitmap := by
  rw [payloadBytes_payloadWord, payloadBytes_payloadWord]
  match bitmap, h with
  | [_, _, _, _, _, _, _, _], _ => rfl

/-- Settles O2: DEFGLYPH's payload words carry its whole bitmap, and every other operation's word is a row of the table. -/
theorem decodeOfEncode : Obligations.DecodeOfEncode := by
  intro i rest hwf
  cases i with
  | defglyph slot bitmap =>
    have hlength : bitmap.length = 8 := by simpa [Instr.wellFormed] using hwf
    refine (decode_glyph _ _ rest (opField_opWord 0x06 slot 0 0)).trans ?_
    rw [aField_opWord, payloadBytes_of_bitmap hlength]
  | _ => exact decode_opWord rest (by decide) rfl

/-- Settles O3: by whether the operation is a DEFGLYPH. -/
theorem decodeTakesWholeOperation : Obligations.DecodeTakesWholeOperation := by
  intro ws rest i hdecode
  refine ⟨decode_wellFormed hdecode, ?_⟩
  obtain ⟨w, rfl, h6, -⟩ | ⟨w, p0, p1, rfl, h6, -⟩ := decode_cases hdecode
  case inl => exact ⟨w, [], rfl, (if_neg h6).symm⟩
  case inr => exact ⟨w, [p0, p1], rfl, (if_pos h6).symm⟩

/-! ### The table of R85 -/

/-- A row of the table, by the word's operation code. -/
theorem decode_of_opField {w : Word} {op : Byte} {i : Instr} (rest : List Word) (hop : opField w = op) (h6 : op ≠ 0x06)
    (h : decodeOne op (aField w) (bField w) (cField w) = some i) : decode (w :: rest) = .operation i rest :=
  decode_of_decodeOne rest (hop ▸ h6) (hop ▸ h)

/-- A row of SETMODE, by the word's mode number. -/
theorem decode_of_mode {w : Word} {a : Byte} {i : Instr} (rest : List Word) (hop : opField w = 0x10) (ha : aField w = a)
    (h : decodeMode a = some i) : decode (w :: rest) = .operation i rest :=
  decode_of_opField rest hop (by decide) (ha ▸ h)

/-- Settles O4: row by row in the table's order, SETMODE's twelve by the mode number. -/
theorem encodingTable : Obligations.EncodingTable := by
  intro w p0 p1 rest op a b c
  have row {code : Byte} {i : Instr} (h6 : code ≠ 0x06) (h : decodeOne code a b c = some i) (hop : op = code) :
      decode (w :: rest) = .operation i rest := decode_of_opField rest hop h6 h
  have mode {number : Byte} {i : Instr} (h : decodeMode number = some i) (hop : op = 0x10) (ha : a = number) :
      decode (w :: rest) = .operation i rest := decode_of_mode rest hop ha h
  exact ⟨row (by decide) rfl, row (by decide) rfl, row (by decide) rfl, row (by decide) rfl, row (by decide) rfl,
    row (by decide) rfl, decode_glyph p0 p1 rest, row (by decide) rfl, mode rfl, mode rfl, mode rfl, mode rfl, mode rfl,
    mode rfl, mode rfl, mode rfl, mode rfl, mode rfl, mode rfl, mode rfl, row (by decide) rfl, row (by decide) rfl,
    row (by decide) rfl, row (by decide) rfl⟩

/-- Settles O1: each word is read by the row of its operation code, with its own operand fields. -/
theorem sampleWordsDecode : Obligations.SampleWordsDecode :=
  ⟨decode_of_opField (op := 0x00) [] (by decide) (by decide) rfl,
    decode_of_opField (op := 0x03) [] (by decide) (by decide) (by decide),
    decode_of_opField (op := 0x04) [] (by decide) (by decide) (by decide),
    decode_of_opField (op := 0x05) [] (by decide) (by decide) (by decide),
    (decode_glyph _ _ [] (by decide)).trans (by decide),
    decode_of_mode (a := 4) [] (by decide) (by decide) rfl,
    decode_of_opField (op := 0x22) [] (by decide) (by decide) (by decide),
    decode_of_opField (op := 0x23) [] (by decide) (by decide) (by decide)⟩

/-! ### Reserved words -/

/-- R88's reserved words by their fields. -/
theorem reserved_iff (w : Word) :
    Reserved w ↔
      (0x08 ≤ (opField w).toNat ∧ (opField w).toNat ≤ 0x0F) ∨ (0x11 ≤ (opField w).toNat ∧ (opField w).toNat ≤ 0x1F) ∨
        0x24 ≤ (opField w).toNat ∨ ((opField w).toNat = 0x10 ∧ 12 ≤ (aField w).toNat) := Iff.rfl

/-- A reserved operation code is not DEFGLYPH's. -/
theorem opField_ne_of_reserved {w : Word} (h : Reserved w) : opField w ≠ 0x06 := by
  intro h6
  simp [reserved_iff, h6] at h

/-- The table has no row for a reserved word (R85, R88). -/
theorem decodeOne_of_reserved {w : Word} (h : Reserved w) :
    decodeOne (opField w) (aField w) (bField w) (cField w) = none := by
  rw [reserved_iff] at h
  generalize opField w = op at h ⊢
  unfold decodeOne
  split
  case h_8 => exact (decodeMode_eq_none_iff _).2 (by simpa using h)
  case h_13 => rfl
  all_goals simp at h

/-- The decoder calls a reserved word reserved (R88). -/
theorem decode_of_reserved {w : Word} (h : Reserved w) (rest : List Word) : decode (w :: rest) = .reserved w :=
  decode_reserved rest (opField_ne_of_reserved h) (decodeOne_of_reserved h)

/-- Settles O5: what the decoder calls reserved is outside the table, and the table has no row for a reserved word. -/
theorem reservedWordsExactly : Obligations.ReservedWordsExactly := by
  refine fun w rest => ⟨fun hdecode => ?_, fun hreserved => decode_of_reserved hreserved rest⟩
  obtain ⟨-, -, hreserved⟩ := decode_eq_reserved hdecode
  exact hreserved

/-- Settles O6: the decoder calls the next word reserved, and an idle block refuses it. -/
theorem reservedWordIsRefused : Obligations.ReservedWordIsRefused := by
  intro s w rest hidle hport hreserved
  refine step_of_reserved hidle ?_
  rw [hport]
  exact decode_of_reserved hreserved rest

end Sys2Proof.Machine
end

section
/-! BUSY during an operation (O11), and the reset (O14, O16, O17). -/

namespace Sys2Proof.Machine

/-! ### BUSY -/

/-- The first `k` steps of an accepted operation perform its first `k` statements and leave the others (R21, R39). -/
theorem run_acceptInstr (i : Instr) (s : State) {k : Nat} (hk : k ≤ (plan i s).length) :
    Sys2Proof.core.run k (acceptInstr i s) =
      .next { performAll ((plan i s).take k) s with pending := (plan i s).drop k } := by
  have hrun := run_accept_append ((plan i s).take k) ((plan i s).drop k) s
  rw [List.take_append_drop, List.length_take_of_le hk] at hrun
  exact hrun

/-- `BUSY` is 1 while a statement is left (R39). -/
theorem busy_eq_one_of_pending {s : State} (h : s.pending ≠ []) : s.busy = 1 := by
  simp [State.busy, h]

/-- Settles O11: after `k` steps the statements left are the plan without its first `k`, and no statement touches the port or the
configuration. -/
theorem busyUntilLastStatement : Obligations.BusyUntilLastStatement := by
  intro i s _
  refine ⟨fun k hk => ⟨_, run_acceptInstr i s hk.le, ?_, performAll_port _ s, performAll_sameConfig _ s⟩,
    _, run_acceptInstr i s le_rfl, ?_⟩
  · exact busy_eq_one_of_pending (by simpa using hk)
  · exact (busy_eq_zero_iff _).2 (by simp [State.Idle])

/-! ### Reset -/

/-- Settles O14: the configuration is the one given, the registers are constants. -/
theorem resetValues : Obligations.ResetValues := fun c =>
  ⟨rfl, rfl, rfl, rfl, rfl, rfl, rfl, rfl, rfl, resetWith_config c, rfl, rfl, rfl, rfl⟩

/-- After reset the read/write line is at 0 where it exists (R37, R43). -/
theorem resetWith_rw_getD (c : Config) : (State.resetWith c).rw.getD 0 = 0 := by
  rw [State.resetWith]
  cases c.hasRw <;> rfl

/-- After reset every pin is 0, with or without the read/write line (R31, R43). -/
theorem resetWith_pins (c : Config) : (State.resetWith c).pins = 0 := by
  rw [pins_eq_ofNat, resetWith_rw_getD]
  rfl

/-- The reset event keeps the configuration (R235). -/
theorem resetEvent_sameConfig (s : State) : SameConfig s (resetEvent s) :=
  ⟨rfl, resetWith_hasRw s.config, rfl, rfl⟩

/-- Settles O16: the reset values of the sampled configuration. -/
theorem resetEventRestores : Obligations.ResetEventRestores := fun s =>
  ⟨rfl, rfl, rfl, rfl, resetWith_pins s.config, resetEvent_sameConfig s⟩

/-- The invariant holds after reset (R43): the trace is empty, nothing is pending, and every pin is 0. -/
theorem resetWith_inv (c : Config) : (State.resetWith c).Inv where
  traceSaysPins := by
    rw [resetWith_hasRw]
    rfl
  enableRestsLow := rfl
  writeModeHeld v hv := by simpa [hv] using resetWith_rw_getD c
  writeModeKept _ hv := absurd hv List.not_mem_nil
  absentLineSilent _ _ := List.not_mem_nil

/-- Settles O17: the invariant of an idle block does not speak of the port, which is all the reset event keeps beside the
configuration. -/
theorem resetMeetsInvariant : Obligations.ResetMeetsInvariant :=
  ⟨resetWith_inv, fun s => (resetWith_inv s.config).with_port rfl s.port⟩

end Sys2Proof.Machine
end

section
/-! INIT, HOME, PUTCAT and GETC as whole state changes (O23, O24, O27, O30, O32), and the translation off the panel (O45, O55). -/

namespace Sys2Proof.Machine

/-! ### INIT and HOME -/

/-- INIT's transfers make its whole pin trace (R130). -/
theorem frames_initTransfers (s : State) : frames s.timing (initTransfers s) = initFrames s := by
  cases hline : s.hasRw <;> cases hfourth : s.initNibbles.fourth <;>
    simp [initTransfers, initFrames, hline, hfourth, Transfer.frame]

/-- Settles O23: INIT's effect, with its pin trace written out. -/
theorem initResult : Obligations.InitResult := by
  intro s
  rw [exec_eq_plan, plan, performAll_planInit, frames_initTransfers]

/-- Settles O24: what is seen of INIT is what its transfers send. -/
theorem initByteSequence : Obligations.InitByteSequence := by
  intro s he hnibbles
  obtain ⟨t, hexec, htrace⟩ := exec_trace .init s
  refine ⟨t, _, hexec, htrace, ?_⟩
  rw [bytesFrom_exec he hexec htrace, operationTransfers, initTransfers, hnibbles]
  cases s.hasRw <;> rfl

/-- The pin events of HOME (R135). -/
def homeEvents (t : Timing) : List Event := cmdFrame t 0x02 ++ [.dly t.tLong]

/-- HOME's whole effect (R135). -/
theorem exec_home (s : State) :
    exec .home s = .next
      { s with
        col := 0, row := 0, rs := 0, e := 0, d := 0x2, resp := 0, trace := s.trace ++ homeEvents s.timing } := by
  rw [exec_eq_plan]
  simp [plan, planHome, performAll_append, performAll_writeCmd, perform, cmdReturnHome, homeEvents]

/-- From a resting enable line HOME is seen as the one command 0x02 (R14, R135). -/
theorem bytesFrom_homeEvents {s : State} (he : s.e = 0) : bytesFrom s (homeEvents s.timing) = [.cmd 0x02] :=
  byteSequence_frames s.timing [.cmd 0x02, .wait s.timing.tLong] s.pinState false he

/-- Settles O27: HOME's effect, and what is seen of its events. -/
theorem homeResult : Obligations.HomeResult := fun s => ⟨exec_home s, bytesFrom_homeEvents⟩

/-! ### PUTCAT and GETC -/

/-- PUTCAT's whole effect (R151). -/
theorem exec_putcat (s : State) (col row glyph : Byte) :
    exec (.putcat col row glyph) s = .next
      { s with
        rs := 1, e := 0, d := glyph.extractLsb' 0 4, resp := 0
        trace := s.trace ++ positionedEvents s col row glyph } := by
  rw [exec_eq_plan, plan, planPutcat, performAll_append, performAll_positionedWrite]
  rfl

/-- Settles O30: PUTCAT's effect, and what is seen of its events. -/
theorem putcatResult : Obligations.PutcatResult := fun s col row glyph =>
  ⟨exec_putcat s col row glyph, bytesFrom_positionedEvents col row glyph⟩

/-- GETC's whole effect (R157). -/
theorem exec_getc (s : State) : exec .getc s = .next { s with resp := emptyResponse } := rfl

/-- Settles O32: `EMPTY` is 0xFFFFFFFF. -/
theorem getcResult : Obligations.GetcResult := exec_getc

/-! ### The translation off the panel -/

/-- A row out of range gives the sentinel (R58). -/
theorem getAddress_of_rows_le {p : PanelType} {r : Byte} (hr : rows p ≤ r.toNat) (c : Byte) : getAddress p c r = 0xFF :=
  if_pos hr

/-- A row on the panel gives the 8-bit sum, whatever the column (R57, R59). -/
theorem getAddress_of_lt_rows {p : PanelType} {r : Byte} (hr : r.toNat < rows p) (c : Byte) :
    getAddress p c r = BitVec.ofNat 8 (0x80 + base p r.toNat + c.toNat) :=
  if_neg (Nat.not_le.2 hr)

/-- Settles O45: by whether the row is on the panel. -/
theorem addressTranslationOutOfRange : Obligations.AddressTranslationOutOfRange := by
  refine fun p c r => ⟨fun hr => getAddress_of_rows_le hr c, fun hr => ?_⟩
  rw [getAddress_of_lt_rows hr, BitVec.toNat_ofNat]

/-- Row 0 begins at DDRAM address 0 on every panel (R54), so the sum at column 129 wraps to 0x01. -/
theorem getAddress_column129 (p : PanelType) : getAddress p 129 0 = 0x01 := by
  cases p <;> rfl

/-- Settles O55: PUTCAT sends the wrapped sum as its command and writes no tracked register. -/
theorem uncheckedColumnCanSendClearDisplay : Obligations.UncheckedColumnCanSendClearDisplay := by
  refine fun s glyph => ⟨_, exec_putcat s 129 0 glyph, ?_, rfl, rfl⟩
  rw [positionedEvents, getAddress_column129, List.append_assoc]

end Sys2Proof.Machine
end

section
/-! The minimum duration of every operation (O52). -/

namespace Sys2Proof.Machine

/-- The minimum duration of a transfer (R111, R112, R130). -/
def Transfer.time (t : Timing) : Transfer → Nat
  | .writeMode | .selectCommand => 0
  | .wait w => w
  | .nibble _ gap => 3 * t.tPulse + gap
  | .cmd _ | .data _ => byteTime t

theorem duration_frame (t : Timing) (x : Transfer) : duration (x.frame t) = x.time t := by
  cases x with
  | writeMode | selectCommand | wait => rfl
  | nibble n gap =>
    rw [Transfer.frame, loneNibbleFrame, duration_append, duration_nibbleFrame]
    rfl
  | cmd v => exact duration_cmdFrame t v
  | data v => exact duration_dataFrame t v

/-- Durations add up transfer by transfer (R223). -/
theorem duration_frames (t : Timing) (ts : List Transfer) :
    duration (frames t ts) = (ts.map (Transfer.time t)).sum := by
  induction ts with
  | nil => rfl
  | cons x xs ih => rw [frames_cons, duration_append, duration_frame, ih, List.map_cons, List.sum_cons]

/-- INIT with a fourth nibble (R130, R250). -/
theorem duration_frames_initTransfers {s : State} (hfourth : s.initNibbles.fourth.isSome = true) :
    duration (frames s.timing (initTransfers s)) = initTime s.timing := by
  obtain ⟨n, hn⟩ := Option.isSome_iff_exists.1 hfourth
  rw [duration_frames, initTransfers, hn, initTime]
  cases s.hasRw <;> simp [Transfer.time] <;> omega

/-- An accepted DEFGLYPH: nine byte frames (R190, R250). -/
theorem duration_frames_defglyph {slot : Byte} (hslot : slot.toNat ≤ 7) {bitmap : List Byte}
    (hlength : bitmap.length = 8) (s : State) :
    duration (frames s.timing (operationTransfers (.defglyph slot bitmap) s)) = 9 * byteTime s.timing := by
  rw [operationTransfers, if_pos hslot, duration_frames]
  simp [Function.comp_def, Transfer.time, hlength]
  omega

/-- A write at a place: two byte frames (R151, R250). -/
theorem duration_frames_positionedTransfers (s : State) (col row glyph : Byte) :
    duration (frames s.timing (positionedTransfers s col row glyph)) = 2 * byteTime s.timing := by
  rw [← positionedEvents_eq_frames, duration_positionedEvents]

/-- Settles O52: the delays are those of the operation's transfers, added up operation by operation. -/
theorem durationPerOperation : Obligations.DurationPerOperation := by
  intro i s hwf hfourth
  obtain ⟨t, hexec, htrace⟩ := exec_trace i s
  refine ⟨t, _, hexec, htrace, ?_⟩
  cases i with
  | init => exact duration_frames_initTransfers hfourth
  | putcat col row glyph => exact duration_frames_positionedTransfers s col row glyph
  | putc ch =>
    rw [operationTransfers, operationTime]
    split
    · rfl
    · exact duration_frames_positionedTransfers s s.col s.row ch
  | defglyph slot bitmap =>
    rw [operationTime]
    split
    case isTrue hslot => exact duration_frames_defglyph hslot (by simpa [Instr.wellFormed] using hwf) s
    case isFalse hslot =>
      rw [operationTransfers, if_neg hslot]
      rfl
  | _ => exact duration_frames _ _

end Sys2Proof.Machine
end
